-- ==== Sys2Proof/Word.lean ====
section
/-! DEFINITION. The widths of the CHIP-8 core's values (spec 00_scope.md R5, R9, R10): every value is an unsigned bit
vector and every narrowing is written out where it happens. -/

namespace Sys2Proof

/-- One memory cell or one general register: 8 bits, unsigned (R5, R21). -/
abbrev Byte := BitVec 8

/-- An instruction word, the program counter, the index register's holder, a return address: 16 bits (R5, R24, R26). -/
abbrev Word := BitVec 16

/-- A 4-bit field of an instruction word: a register index, a row count, a key code (R71, R180). -/
abbrev Nibble := BitVec 4

/-- A memory address: "an address is a 12-bit number" (R50); also the field `nnn` (R71). -/
abbrev Addr := BitVec 12

/-- The display: 2048 one-bit cells as 32 rows of 64 (R27, R28); bit `x` of row `y` is the cell at column `x`, row `y`. -/
abbrev Pixels := Vector (BitVec 64) 32

/-- The 80 bytes of the glyph table, `GLYPH[0..79]`: a parameter of the model (R6, R33). -/
abbrev Glyph := Vector Byte 80

end Sys2Proof
end

