-- ==== Sys2Proof/Syntax.lean ====
section
/-! DEFINITION. The instruction set: one constructor per row of spec/opcode_table.json, in the table's order, named by the
row's pattern, with every field of the row as an operand (30_encoding.md R71, R72, R75). The customary mnemonics in the
comments carry no authority (R82). -/

namespace Sys2Proof

/-- The 34 instructions. A word that is none of them is `UNKNOWN` and no instruction (R80): the decoder rejects it. -/
inductive Instr where
  /-- `00E0`, clear display (CLS). -/
  | op00E0
  /-- `00EE`, return from subroutine (RET). -/
  | op00EE
  /-- `1nnn`, jump (JP nnn). -/
  | op1nnn (nnn : Addr)
  /-- `2nnn`, call subroutine (CALL nnn). -/
  | op2nnn (nnn : Addr)
  /-- `3xnn`, skip if Vx = nn (SE Vx, nn). -/
  | op3xnn (x : Nibble) (nn : Byte)
  /-- `4xnn`, skip if Vx ≠ nn (SNE Vx, nn). -/
  | op4xnn (x : Nibble) (nn : Byte)
  /-- `5xy0`, skip if Vx = Vy (SE Vx, Vy); `n` is the ignored low nibble of the word (R76). -/
  | op5xy0 (x y n : Nibble)
  /-- `6xnn`, Vx ← nn (LD Vx, nn). -/
  | op6xnn (x : Nibble) (nn : Byte)
  /-- `7xnn`, Vx ← Vx + nn (ADD Vx, nn). -/
  | op7xnn (x : Nibble) (nn : Byte)
  /-- `8xy0`, Vx ← Vy (LD Vx, Vy). -/
  | op8xy0 (x y : Nibble)
  /-- `8xy1`, Vx ← Vx or Vy (OR Vx, Vy). -/
  | op8xy1 (x y : Nibble)
  /-- `8xy2`, Vx ← Vx and Vy (AND Vx, Vy). -/
  | op8xy2 (x y : Nibble)
  /-- `8xy3`, Vx ← Vx xor Vy (XOR Vx, Vy). -/
  | op8xy3 (x y : Nibble)
  /-- `8xy4`, Vx ← Vx + Vy with carry to VF (ADD Vx, Vy). -/
  | op8xy4 (x y : Nibble)
  /-- `8xy5`, Vx ← Vx - Vy with no-borrow to VF (SUB Vx, Vy). -/
  | op8xy5 (x y : Nibble)
  /-- `8xy6`, Vx ← Vx >> 1 with bit 0 to VF (SHR Vx); `y` is encoded and not read (R138). -/
  | op8xy6 (x y : Nibble)
  /-- `8xy7`, Vx ← Vy - Vx with no-borrow to VF (SUBN Vx, Vy). -/
  | op8xy7 (x y : Nibble)
  /-- `8xyE`, Vx ← Vx << 1 with bit 7 to VF (SHL Vx); `y` is encoded and not read (R140). -/
  | op8xyE (x y : Nibble)
  /-- `9xy0`, skip if Vx ≠ Vy (SNE Vx, Vy); `n` is the ignored low nibble of the word (R76). -/
  | op9xy0 (x y n : Nibble)
  /-- `Annn`, I ← nnn (LD I, nnn). -/
  | opAnnn (nnn : Addr)
  /-- `Bnnn`, jump to nnn + V0 (JP V0, nnn). -/
  | opBnnn (nnn : Addr)
  /-- `Cxnn`, Vx ← random byte and nn (RND Vx, nn). -/
  | opCxnn (x : Nibble) (nn : Byte)
  /-- `Dxyn`, draw an n-row sprite (DRW Vx, Vy, n). -/
  | opDxyn (x y n : Nibble)
  /-- `Ex9E`, skip if the key in Vx is pressed (SKP Vx). -/
  | opEx9E (x : Nibble)
  /-- `ExA1`, skip if the key in Vx is not pressed (SKNP Vx). -/
  | opExA1 (x : Nibble)
  /-- `Fx07`, Vx ← delay timer (LD Vx, DT). -/
  | opFx07 (x : Nibble)
  /-- `Fx0A`, wait for a key press into Vx (LD Vx, K). -/
  | opFx0A (x : Nibble)
  /-- `Fx15`, delay timer ← Vx (LD DT, Vx). -/
  | opFx15 (x : Nibble)
  /-- `Fx18`, sound timer ← Vx (LD ST, Vx). -/
  | opFx18 (x : Nibble)
  /-- `Fx1E`, I ← I + Vx (ADD I, Vx). -/
  | opFx1E (x : Nibble)
  /-- `Fx29`, I ← address of the glyph of Vx (LD F, Vx). -/
  | opFx29 (x : Nibble)
  /-- `Fx33`, store the decimal digits of Vx (LD B, Vx). -/
  | opFx33 (x : Nibble)
  /-- `Fx55`, store V0..Vx (LD [I], Vx). -/
  | opFx55 (x : Nibble)
  /-- `Fx65`, load V0..Vx (LD Vx, [I]). -/
  | opFx65 (x : Nibble)
  deriving DecidableEq, Repr

/-- One row of the opcode map (R75): a word `w` is this row's instruction exactly when `w and mask = pattern`. -/
structure OpRow where
  /-- The row's pattern as the table writes it: the canonical name of the instruction (R82, D27). -/
  mnemonic : String
  /-- The bits a decoder tests. -/
  mask : Word
  /-- The values of those bits. -/
  pattern : Word
  deriving DecidableEq, Repr

end Sys2Proof
end

