-- ==== Sys2Proof/Decode.lean ====
section
/-! DEFINITION. The decoder, total on any bytes (30_encoding.md R70, R71, R74, R76 to R80), and after it the encoder and the
opcode map, written from the same table (R75). -/

namespace Sys2Proof

/-- Why the decoder reads no instruction. -/
inductive Reject where
  /-- `UNKNOWN`: the word is none of the 34 instructions (R80). The Cycle reports it and goes on (R97). -/
  | unknownOpcode (w : Word)
  /-- Fewer than two bytes were given. A Cycle never does so: its fetch gives a whole word (R93). -/
  | truncated
  deriving DecidableEq, Repr

/-- Operation group, `w[15:12]` (R71). -/
def fieldGroup (w : Word) : Nibble := w.extractLsb' 12 4
/-- Register index `x`, `w[11:8]` (R71). -/
def fieldX (w : Word) : Nibble := w.extractLsb' 8 4
/-- Register index `y`, `w[7:4]` (R71). -/
def fieldY (w : Word) : Nibble := w.extractLsb' 4 4
/-- `n`, `w[3:0]` (R71). -/
def fieldN (w : Word) : Nibble := w.extractLsb' 0 4
/-- `nn`, `w[7:0]` (R71). -/
def fieldNN (w : Word) : Byte := w.extractLsb' 0 8
/-- `nnn`, `w[11:0]` (R71). -/
def fieldNNN (w : Word) : Addr := w.extractLsb' 0 12

/-- Group 0: all of `w[11:0]` is the sub-code (R77). -/
def decodeGroup0 (w : Word) : Except Reject Instr :=
  if fieldNNN w = 0x0E0 then .ok .op00E0
  else if fieldNNN w = 0x0EE then .ok .op00EE
  else .error (.unknownOpcode w)

/-- Group 8: `w[3:0]` is the sub-code (R78). -/
def decodeGroup8 (w : Word) : Except Reject Instr :=
  match (fieldN w).toNat with
  | 0x0 => .ok (.op8xy0 (fieldX w) (fieldY w))
  | 0x1 => .ok (.op8xy1 (fieldX w) (fieldY w))
  | 0x2 => .ok (.op8xy2 (fieldX w) (fieldY w))
  | 0x3 => .ok (.op8xy3 (fieldX w) (fieldY w))
  | 0x4 => .ok (.op8xy4 (fieldX w) (fieldY w))
  | 0x5 => .ok (.op8xy5 (fieldX w) (fieldY w))
  | 0x6 => .ok (.op8xy6 (fieldX w) (fieldY w))
  | 0x7 => .ok (.op8xy7 (fieldX w) (fieldY w))
  | 0xE => .ok (.op8xyE (fieldX w) (fieldY w))
  | _ => .error (.unknownOpcode w)

/-- Group E: `w[7:0]` is the sub-code (R79). -/
def decodeGroupE (w : Word) : Except Reject Instr :=
  if fieldNN w = 0x9E then .ok (.opEx9E (fieldX w))
  else if fieldNN w = 0xA1 then .ok (.opExA1 (fieldX w))
  else .error (.unknownOpcode w)

/-- Group F: `w[7:0]` is the sub-code (R79). -/
def decodeGroupF (w : Word) : Except Reject Instr :=
  if fieldNN w = 0x07 then .ok (.opFx07 (fieldX w))
  else if fieldNN w = 0x0A then .ok (.opFx0A (fieldX w))
  else if fieldNN w = 0x15 then .ok (.opFx15 (fieldX w))
  else if fieldNN w = 0x18 then .ok (.opFx18 (fieldX w))
  else if fieldNN w = 0x1E then .ok (.opFx1E (fieldX w))
  else if fieldNN w = 0x29 then .ok (.opFx29 (fieldX w))
  else if fieldNN w = 0x33 then .ok (.opFx33 (fieldX w))
  else if fieldNN w = 0x55 then .ok (.opFx55 (fieldX w))
  else if fieldNN w = 0x65 then .ok (.opFx65 (fieldX w))
  else .error (.unknownOpcode w)

/-- The decode procedure of R74: a lookup on the high nibble, and on the group's sub-code in groups 0, 8, E and F. -/
def decode (w : Word) : Except Reject Instr :=
  match (fieldGroup w).toNat with
  | 0x0 => decodeGroup0 w
  | 0x1 => .ok (.op1nnn (fieldNNN w))
  | 0x2 => .ok (.op2nnn (fieldNNN w))
  | 0x3 => .ok (.op3xnn (fieldX w) (fieldNN w))
  | 0x4 => .ok (.op4xnn (fieldX w) (fieldNN w))
  | 0x5 => .ok (.op5xy0 (fieldX w) (fieldY w) (fieldN w))
  | 0x6 => .ok (.op6xnn (fieldX w) (fieldNN w))
  | 0x7 => .ok (.op7xnn (fieldX w) (fieldNN w))
  | 0x8 => decodeGroup8 w
  | 0x9 => .ok (.op9xy0 (fieldX w) (fieldY w) (fieldN w))
  | 0xA => .ok (.opAnnn (fieldNNN w))
  | 0xB => .ok (.opBnnn (fieldNNN w))
  | 0xC => .ok (.opCxnn (fieldX w) (fieldNN w))
  | 0xD => .ok (.opDxyn (fieldX w) (fieldY w) (fieldN w))
  | 0xE => decodeGroupE w
  | _ => decodeGroupF w

/-- The decoder on a byte stream: the first two bytes are one big-endian word (R55, R70); the rest is given back. -/
def decodeBytes : List Byte → Except Reject (Instr × List Byte)
  | hi :: lo :: rest => (decode (hi ++ lo)).map fun i => (i, rest)
  | _ => .error .truncated

/-- The high byte of a word, the one at the lower address (R55). -/
def highByte (w : Word) : Byte := w.extractLsb' 8 8
/-- The low byte of a word, the one at the higher address (R55). -/
def lowByte (w : Word) : Byte := w.extractLsb' 0 8

/-- The 16-bit word of which the opcode table gives the low `nbits` bits; the bits above are 0. -/
def tableWord (nbits w : Nat) : Word := BitVec.ofNat 16 (w % 2 ^ nbits)

/-- The instruction the decoder reads from a word given as the opcode table numbers its bits. -/
def decodeTableWord (nbits w : Nat) : Option Instr :=
  match decodeBytes [highByte (tableWord nbits w), lowByte (tableWord nbits w)] with
  | .ok (i, _) => some i
  | .error _ => none

/-- Format A, `g nnn` (R72). -/
def shapeA (g : Nibble) (nnn : Addr) : Word := g ++ nnn
/-- Formats XI and XS, `g x nn` and `g x ss` (R72). -/
def shapeXI (g x : Nibble) (nn : Byte) : Word := g ++ (x ++ nn)
/-- Formats XY and XYN, `g x y s` and `g x y n` (R72). -/
def shapeXY (g x y n : Nibble) : Word := g ++ (x ++ (y ++ n))

/-- The word of an instruction (R72, R75). -/
def encode : Instr → Word
  | .op00E0 => 0x00E0
  | .op00EE => 0x00EE
  | .op1nnn nnn => shapeA 0x1 nnn
  | .op2nnn nnn => shapeA 0x2 nnn
  | .op3xnn x nn => shapeXI 0x3 x nn
  | .op4xnn x nn => shapeXI 0x4 x nn
  | .op5xy0 x y n => shapeXY 0x5 x y n
  | .op6xnn x nn => shapeXI 0x6 x nn
  | .op7xnn x nn => shapeXI 0x7 x nn
  | .op8xy0 x y => shapeXY 0x8 x y 0x0
  | .op8xy1 x y => shapeXY 0x8 x y 0x1
  | .op8xy2 x y => shapeXY 0x8 x y 0x2
  | .op8xy3 x y => shapeXY 0x8 x y 0x3
  | .op8xy4 x y => shapeXY 0x8 x y 0x4
  | .op8xy5 x y => shapeXY 0x8 x y 0x5
  | .op8xy6 x y => shapeXY 0x8 x y 0x6
  | .op8xy7 x y => shapeXY 0x8 x y 0x7
  | .op8xyE x y => shapeXY 0x8 x y 0xE
  | .op9xy0 x y n => shapeXY 0x9 x y n
  | .opAnnn nnn => shapeA 0xA nnn
  | .opBnnn nnn => shapeA 0xB nnn
  | .opCxnn x nn => shapeXI 0xC x nn
  | .opDxyn x y n => shapeXY 0xD x y n
  | .opEx9E x => shapeXI 0xE x 0x9E
  | .opExA1 x => shapeXI 0xE x 0xA1
  | .opFx07 x => shapeXI 0xF x 0x07
  | .opFx0A x => shapeXI 0xF x 0x0A
  | .opFx15 x => shapeXI 0xF x 0x15
  | .opFx18 x => shapeXI 0xF x 0x18
  | .opFx1E x => shapeXI 0xF x 0x1E
  | .opFx29 x => shapeXI 0xF x 0x29
  | .opFx33 x => shapeXI 0xF x 0x33
  | .opFx55 x => shapeXI 0xF x 0x55
  | .opFx65 x => shapeXI 0xF x 0x65

/-- The instruction's row of the opcode map (R75). -/
def Instr.row : Instr → OpRow
  | .op00E0 => ⟨"00E0", 0xFFFF, 0x00E0⟩
  | .op00EE => ⟨"00EE", 0xFFFF, 0x00EE⟩
  | .op1nnn _ => ⟨"1nnn", 0xF000, 0x1000⟩
  | .op2nnn _ => ⟨"2nnn", 0xF000, 0x2000⟩
  | .op3xnn _ _ => ⟨"3xnn", 0xF000, 0x3000⟩
  | .op4xnn _ _ => ⟨"4xnn", 0xF000, 0x4000⟩
  | .op5xy0 _ _ _ => ⟨"5xy0", 0xF000, 0x5000⟩
  | .op6xnn _ _ => ⟨"6xnn", 0xF000, 0x6000⟩
  | .op7xnn _ _ => ⟨"7xnn", 0xF000, 0x7000⟩
  | .op8xy0 _ _ => ⟨"8xy0", 0xF00F, 0x8000⟩
  | .op8xy1 _ _ => ⟨"8xy1", 0xF00F, 0x8001⟩
  | .op8xy2 _ _ => ⟨"8xy2", 0xF00F, 0x8002⟩
  | .op8xy3 _ _ => ⟨"8xy3", 0xF00F, 0x8003⟩
  | .op8xy4 _ _ => ⟨"8xy4", 0xF00F, 0x8004⟩
  | .op8xy5 _ _ => ⟨"8xy5", 0xF00F, 0x8005⟩
  | .op8xy6 _ _ => ⟨"8xy6", 0xF00F, 0x8006⟩
  | .op8xy7 _ _ => ⟨"8xy7", 0xF00F, 0x8007⟩
  | .op8xyE _ _ => ⟨"8xyE", 0xF00F, 0x800E⟩
  | .op9xy0 _ _ _ => ⟨"9xy0", 0xF000, 0x9000⟩
  | .opAnnn _ => ⟨"Annn", 0xF000, 0xA000⟩
  | .opBnnn _ => ⟨"Bnnn", 0xF000, 0xB000⟩
  | .opCxnn _ _ => ⟨"Cxnn", 0xF000, 0xC000⟩
  | .opDxyn _ _ _ => ⟨"Dxyn", 0xF000, 0xD000⟩
  | .opEx9E _ => ⟨"Ex9E", 0xF0FF, 0xE09E⟩
  | .opExA1 _ => ⟨"ExA1", 0xF0FF, 0xE0A1⟩
  | .opFx07 _ => ⟨"Fx07", 0xF0FF, 0xF007⟩
  | .opFx0A _ => ⟨"Fx0A", 0xF0FF, 0xF00A⟩
  | .opFx15 _ => ⟨"Fx15", 0xF0FF, 0xF015⟩
  | .opFx18 _ => ⟨"Fx18", 0xF0FF, 0xF018⟩
  | .opFx1E _ => ⟨"Fx1E", 0xF0FF, 0xF01E⟩
  | .opFx29 _ => ⟨"Fx29", 0xF0FF, 0xF029⟩
  | .opFx33 _ => ⟨"Fx33", 0xF0FF, 0xF033⟩
  | .opFx55 _ => ⟨"Fx55", 0xF0FF, 0xF055⟩
  | .opFx65 _ => ⟨"Fx65", 0xF0FF, 0xF065⟩

/-- The opcode map (R75), in the table's order. -/
def opcodeTable : List OpRow :=
  [
   Instr.op00E0.row, Instr.op00EE.row, (Instr.op1nnn 0).row,
   (Instr.op2nnn 0).row, (Instr.op3xnn 0 0).row, (Instr.op4xnn 0 0).row,
   (Instr.op5xy0 0 0 0).row, (Instr.op6xnn 0 0).row, (Instr.op7xnn 0 0).row,
   (Instr.op8xy0 0 0).row, (Instr.op8xy1 0 0).row, (Instr.op8xy2 0 0).row,
   (Instr.op8xy3 0 0).row, (Instr.op8xy4 0 0).row, (Instr.op8xy5 0 0).row,
   (Instr.op8xy6 0 0).row, (Instr.op8xy7 0 0).row, (Instr.op8xyE 0 0).row,
   (Instr.op9xy0 0 0 0).row, (Instr.opAnnn 0).row, (Instr.opBnnn 0).row,
   (Instr.opCxnn 0 0).row, (Instr.opDxyn 0 0 0).row, (Instr.opEx9E 0).row,
   (Instr.opExA1 0).row, (Instr.opFx07 0).row, (Instr.opFx0A 0).row,
   (Instr.opFx15 0).row, (Instr.opFx18 0).row, (Instr.opFx1E 0).row,
   (Instr.opFx29 0).row, (Instr.opFx33 0).row, (Instr.opFx55 0).row,
   (Instr.opFx65 0).row
  ]

end Sys2Proof
end

