-- ==== Sys2Proof/Config.lean ====
section
/-! DEFINITION. What the spec leaves to an implementation (00_scope.md R6): the source of the random byte, which is a free
value here, and the default of the glyph table, which only the reset state takes. -/

namespace Sys2Proof

/-- The random byte of the k-th Cycle that the host's schedule does not itself give one: "a draw under no law" (R6, R141,
D15). It has no body, so nothing can be proved of its value. Assumption log 2. -/
opaque Config.rand8 : Nat → Byte

/-- PRESUMED: the default glyph table of 10_state.md R33, "from general knowledge, not in source". Only `State.reset` takes
it; the machine itself reads the table from the state's field `glyph`, which is any 80 bytes. Assumption log 1. -/
def Config.defaultGlyph : Glyph := #v[
  0xF0, 0x90, 0x90, 0x90, 0xF0,
  0x20, 0x60, 0x20, 0x20, 0x70,
  0xF0, 0x10, 0xF0, 0x80, 0xF0,
  0xF0, 0x10, 0xF0, 0x10, 0xF0,
  0x90, 0x90, 0xF0, 0x10, 0x10,
  0xF0, 0x80, 0xF0, 0x10, 0xF0,
  0xF0, 0x80, 0xF0, 0x90, 0xF0,
  0xF0, 0x10, 0x20, 0x40, 0x40,
  0xF0, 0x90, 0xF0, 0x90, 0xF0,
  0xF0, 0x90, 0xF0, 0x10, 0xF0,
  0xF0, 0x90, 0xF0, 0x90, 0x90,
  0xE0, 0x90, 0xE0, 0x90, 0xE0,
  0xF0, 0x80, 0x80, 0x80, 0xF0,
  0xE0, 0x90, 0x90, 0x90, 0xE0,
  0xF0, 0x80, 0xF0, 0x80, 0xF0,
  0xF0, 0x80, 0xF0, 0x80, 0x80]

end Sys2Proof
end

