-- ==== Sys2Proof/Machine/Memory.lean ====
section
/-! DEFINITION. The memory bank as plain data (20_memory.md R50, R51): a list of the cells that differ from what an unlisted
address reads as, sorted by address. -/

namespace Sys2Proof.Machine

/-- What an address that is not listed reads as: the glyph table at 0x000-0x04F, 0x00 above it (10_state.md R34). -/
def Memory.unlisted (g : Glyph) (a : Nat) : Byte := if h : a < 80 then g[a] else 0

/-- The canonical form: addresses strictly rising and inside the space, no cell equal to what it would read as unlisted. -/
abbrev Memory.wf (g : Glyph) (m : List Host.Cell) : Prop :=
  m.Pairwise (fun c d => c.1 < d.1) ∧ ∀ c ∈ m, c.1 < 4096 ∧ c.2 ≠ Memory.unlisted g c.1

/-- The byte at an address. -/
def Memory.read (g : Glyph) : List Host.Cell → Nat → Byte
  | [], a => Memory.unlisted g a
  | c :: m, a => if c.1 = a then c.2 else Memory.read g m a

/-- A byte put in front of cells that all lie above it, unless the address reads so anyway. -/
def Memory.put (g : Glyph) (a : Nat) (v : Byte) (m : List Host.Cell) : List Host.Cell :=
  if v = Memory.unlisted g a then m else (a, v) :: m

/-- The cells at every address but one. -/
def Memory.erase (a : Nat) (m : List Host.Cell) : List Host.Cell := m.filter fun c => c.1 != a

/-- A byte put before the first cell that lies above it. -/
def Memory.insert (g : Glyph) (a : Nat) (v : Byte) : List Host.Cell → List Host.Cell
  | [] => Memory.put g a v []
  | c :: m => if a < c.1 then Memory.put g a v (c :: m) else c :: Memory.insert g a v m

/-- The memory with one byte stored (R52). -/
def Memory.write (g : Glyph) (m : List Host.Cell) (a : Nat) (v : Byte) : List Host.Cell :=
  Memory.insert g a v (Memory.erase a m)

/-- Bytes laid at consecutive addresses of an otherwise unlisted memory (the loader's copy, R240, R245). -/
def Memory.image (g : Glyph) : Nat → List Byte → List Host.Cell
  | _, [] => []
  | a, b :: bs => Memory.put g a b (Memory.image g (a + 1) bs)

end Sys2Proof.Machine
end

