-- ==== Sys2Proof/Machine/State.lean ====
section
/-! DEFINITION. The machine's state as plain data (10_state.md R20), its events, conditions and results, why a step can stop,
and the state after reset (R34). -/

namespace Sys2Proof.Machine

/-- The execution state (R31). -/
inductive ExecState where
  /-- The next Cycle fetches and executes. -/
  | running
  /-- An `Fx0A` with `x = r` has executed and no press transition has come since. -/
  | awaitingKey (r : Nibble)
  /-- The key is latched; the next Cycle only adds the deferred 2 to `pc`. -/
  | resuming
  deriving DecidableEq, Repr

/-- The four events of R7: everything the host can do to the machine (R246). -/
inductive Event where
  /-- One dispatch cycle with its random byte (R90). -/
  | cycle (rand8 : Byte)
  /-- One timer step (R200). -/
  | tick
  /-- A key's state changes; the code is typed as 4 bits (R180, D24). -/
  | key (code : Nibble) (pressed : Bool)
  /-- Load a program image: the only reset (R240). -/
  | load (bytes : List Byte)
  deriving DecidableEq, Repr

/-- The conditions that are reported while the machine goes on (R12, R210). -/
inductive Condition where
  /-- The fetched word is no instruction (R211). -/
  | unknownOpcode (w : Word)
  /-- `2nnn` with 16 entries on the call stack (R212). -/
  | stackOverflow
  /-- `00EE` with an empty call stack (R213). -/
  | stackUnderflow
  deriving DecidableEq, Repr

/-- Why a step stops with a fault: the two aborting conditions of R210. The spec's treatment is "a fault" (R215, R216), and the
event changes no state. Both are SAFE: the machine is wedged there until a Load. -/
inductive Fault where
  /-- Raised by the fetch of a Cycle at `pc >= 0xFFF` (R54, R215). Safe. Assumption log 5, 9. -/
  | outOfBounds (pc : Word)
  /-- Raised by `Ex9E` and `ExA1` when `V[x] > 0x0F` (R181, R182, R216). Safe. Assumption log 5, 13. -/
  | keyIndex (k : Byte)
  deriving DecidableEq, Repr

/-- Why a step is refused. -/
inductive Refusal where
  /-- Raised by an arm of `exec` whose instruction has no meaning yet; no arm does. Safe. -/
  | notModelled (mnemonic : String)
  /-- Raised by a Cycle, Tick or Key event before the first successful Load, to which the spec gives no meaning: "a model refuses
  them" (R35, R243). Safe. Assumption log 6. -/
  | notLoaded
  deriving DecidableEq, Repr

/-- What an event returns to the host (R98, R217, R241). -/
inductive Result where
  /-- An instruction ran with no condition. -/
  | executed
  /-- The machine was waiting for a key: nothing changed. -/
  | idle
  /-- The Cycle that adds the deferred 2 of an `Fx0A`. -/
  | retired
  /-- A reported condition. -/
  | reported (c : Condition)
  /-- An aborting condition; a step shows it as the fault itself, `deliver` as this result. -/
  | aborted (f : Fault)
  /-- A Load that succeeded. -/
  | ok
  /-- A Load refused for its length, `OutOfBounds(len)` (R214, R241). -/
  | refused (len : Nat)
  deriving DecidableEq, Repr

/-- The complete state of the core (R20), and after it the model's own five fields. -/
structure State where
  /-- Memory, in the canonical form `Memory.wf` (R32, R50). -/
  mem : List Host.Cell
  /-- General registers V0..VF (R21); VF is also the flag (R22). -/
  V : Vector Byte 16
  /-- Index register: "a 16-bit value always masked to 12 bits after every update" (R23). -/
  I : Word
  /-- Program counter (R24). -/
  pc : Word
  /-- Call stack, the newest entry first (R26). -/
  stack : List Word
  /-- Display (R27). -/
  fb : Pixels
  /-- Key states; true is pressed (R30). -/
  keys : Vector Bool 16
  /-- Execution state (R31). -/
  exec : ExecState
  /-- Delay timer (R29). -/
  DT : Byte
  /-- Sound timer (R29). -/
  ST : Byte
  /-- Whether a Load has ever succeeded (R35). -/
  loaded : Bool
  /-- The model's own: the parameter `GLYPH` (R6, R33). Nothing writes it. Assumption log 1. -/
  glyph : Glyph
  /-- The model's own: the host's events still to come, the next one first (R7, D20). Assumption log 3. -/
  inbox : List Event
  /-- The model's own: the random byte of the Cycle in progress (R141). Assumption log 2. -/
  rand8 : Byte
  /-- The model's own: how many Cycles have taken the free value `Config.rand8`. Assumption log 2. -/
  draws : Nat
  /-- The model's own: what the last event returned (R98, R217); `none` after a Tick or a Key. Assumption log 4. -/
  result : Option Result
  deriving DecidableEq, Repr

/-- The machine right after reset: the state after a Load of the empty program (R34, R240, D30), with no event pending.
Assumption log 7 says how a program comes to run from it. -/
def State.reset : State where
  mem := []
  V := Vector.replicate 16 0
  I := 0
  pc := 0x200
  stack := []
  fb := Vector.replicate 32 0
  keys := Vector.replicate 16 false
  exec := .running
  DT := 0
  ST := 0
  loaded := true
  glyph := Config.defaultGlyph
  inbox := []
  rand8 := 0
  draws := 0
  result := some .ok

/-- The machine as it is created, before any Load: "the whole state is created once (all zero)" (R35, R243). -/
def State.created (g : Glyph) : State where
  mem := Memory.image g 0 (List.replicate 80 0)
  V := Vector.replicate 16 0
  I := 0
  pc := 0
  stack := []
  fb := Vector.replicate 32 0
  keys := Vector.replicate 16 false
  exec := .running
  DT := 0
  ST := 0
  loaded := false
  glyph := g
  inbox := []
  rand8 := 0
  draws := 0
  result := none

end Sys2Proof.Machine
end

