-- ==== Sys2Proof/Machine/Ops.lean ====
section
/-! DEFINITION. The named operations over the state: one update per field, registers, memory, the fetch, the call stack, the
display, the ends of an instruction, and the two ways a condition is raised. This machine takes no exception: a condition
saves nothing and goes to no handler (60_exceptions.md R218, R219); `State.report` and `abort` are what it has instead. -/

namespace Sys2Proof.Machine

/-- What a meaning, an event or a step answers. -/
abbrev Outcome := Host.Outcome State Fault Refusal

/-! ### One update per field -/

def State.setMem (s : State) (m : List Host.Cell) : State := { s with mem := m }
def State.setRegs (s : State) (v : Vector Byte 16) : State := { s with V := v }
def State.setI (s : State) (i : Word) : State := { s with I := i }
def State.setPc (s : State) (a : Word) : State := { s with pc := a }
def State.setStack (s : State) (l : List Word) : State := { s with stack := l }
def State.setFb (s : State) (p : Pixels) : State := { s with fb := p }
def State.setKeys (s : State) (k : Vector Bool 16) : State := { s with keys := k }
def State.setExec (s : State) (e : ExecState) : State := { s with exec := e }
def State.setDT (s : State) (v : Byte) : State := { s with DT := v }
def State.setST (s : State) (v : Byte) : State := { s with ST := v }
def State.setLoaded (s : State) (b : Bool) : State := { s with loaded := b }
def State.setInbox (s : State) (l : List Event) : State := { s with inbox := l }
def State.setRand8 (s : State) (r : Byte) : State := { s with rand8 := r }
def State.setDraws (s : State) (n : Nat) : State := { s with draws := n }
def State.setResult (s : State) (r : Option Result) : State := { s with result := r }

/-! ### Registers (R21, R37): every read and write of a general register and of a key state goes through these -/

/-- `V[x]`. -/
def State.getV (s : State) (x : Nibble) : Byte := s.V[x.toNat]'(x.isLt)

/-- `V[x] <- v`. -/
def State.setV (s : State) (x : Nibble) (v : Byte) : State := s.setRegs (s.V.set x.toNat v x.isLt)

/-- `keys[k]` (R30). -/
def State.getKey (s : State) (k : Nibble) : Bool := s.keys[k.toNat]'(k.isLt)

/-- `keys[k] <- b` (R180). -/
def State.setKey (s : State) (k : Nibble) (b : Bool) : State := s.setKeys (s.keys.set k.toNat b k.isLt)

/-! ### Memory (R52 to R56) -/

/-- `MemRead(a, 1)` at an address that is inside the space by its type. -/
def State.read (s : State) (a : Addr) : Byte := Memory.read s.glyph s.mem a.toNat

/-- `MemWrite(a, 1, v)` at an address that is inside the space by its type. -/
def State.store (s : State) (a : Addr) (v : Byte) : State := s.setMem (Memory.write s.glyph s.mem a.toNat v)

/-- `MemRead` at any address, "bounds-checked against [0,4095]" (R52): `none` is the failed check. -/
def State.readChecked (s : State) (a : Nat) : Option Byte :=
  if a < 4096 then some (s.read (BitVec.ofNat 12 a)) else none

/-- The fetch (R54, R55, R93): two bounds-checked reads, the byte at the lower address high; it aborts with the `pc`. -/
def State.fetch (s : State) : Except Fault Word :=
  match s.readChecked s.pc.toNat, s.readChecked (s.pc.toNat + 1) with
  | some hi, some lo => .ok (hi ++ lo)
  | _, _ => .error (.outOfBounds s.pc)

/-- A word laid at `pc` and `pc + 1`, high byte first, where both lie inside the space. -/
def State.placeWord (s : State) (w : Word) : State :=
  if s.pc.toNat < 0xFFF then
    (s.store (BitVec.ofNat 12 s.pc.toNat) (highByte w)).store (BitVec.ofNat 12 (s.pc.toNat + 1)) (lowByte w)
  else s

/-! ### Call stack (R26): a full or an empty stack makes the operation fail and changes nothing -/

/-- `push(a)`: `none` is `StackOverflow`. -/
def State.push (s : State) (a : Word) : Option State :=
  if s.stack.length < 16 then some (s.setStack (a :: s.stack)) else none

/-- `pop()`: `none` is `StackUnderflow`. -/
def State.pop (s : State) : Option (Word × State) :=
  match s.stack with
  | [] => none
  | a :: rest => some (a, s.setStack rest)

/-! ### Display (R27, R28) and the tone (R36, R204) -/

/-- The index of the cell at column `x`, row `y`: toroidal in both directions (R28). -/
def cellIndex (x y : Nat) : Nat := x % 64 + y % 32 * 64

/-- Every cell off (R27). -/
def Pixels.allOff : Pixels := Vector.replicate 32 0

/-- The row of 64 cells that holds cell `i`. -/
def Pixels.row (p : Pixels) (i : Nat) : BitVec 64 := p[i / 64 % 32]'(Nat.mod_lt _ (by decide))

/-- Cell `i`, row-major, 64 cells a row (R28). -/
def Pixels.cell (p : Pixels) (i : Nat) : Bool := (Pixels.row p i).getLsbD (i % 64)

/-- The display with cell `i` toggled: "no cell is ever set directly, only toggled" (R27). -/
def Pixels.toggle (p : Pixels) (i : Nat) : Pixels :=
  p.set (i / 64 % 32) (Pixels.row p i ^^^ BitVec.twoPow 64 (i % 64)) (Nat.mod_lt _ (by decide))

/-- Whether cell `i` of the machine's display is on. -/
def State.cell (s : State) (i : Nat) : Bool := Pixels.cell s.fb i

/-- The tone signal, an output computed from the state (R204). -/
def State.tone (s : State) : Bool := decide (0 < s.ST.toNat)

/-! ### How an instruction or a Cycle ends -/

/-- The instruction is done and the next one is at `a`; the Cycle's result is `Executed` (R98). -/
def State.finishAt (s : State) (a : Word) : Outcome := .next ((s.setPc a).setResult (some .executed))

/-- The default change of `pc`, "+2" (R96). -/
def State.finish (s : State) : Outcome := s.finishAt (s.pc + 2)

/-- A skip, "+4 or +2" (R96). -/
def State.skipIf (s : State) (c : Bool) : Outcome := s.finishAt (if c then s.pc + 4 else s.pc + 2)

/-- Report a condition and go on at `pc + 2` with nothing else changed (R12, R97, R212, R213). -/
def State.report (s : State) (c : Condition) : Outcome := .next ((s.setPc (s.pc + 2)).setResult (some (.reported c)))

/-- Abort the event with a condition: no state changes (R12, R215, R216). -/
def abort (f : Fault) : Outcome := .fault f

end Sys2Proof.Machine
end

