-- ==== Sys2Proof/Machine/Operands.lean ====
section
/-! DEFINITION. The operand forms: the one data addressing mode, immediates, key operands, decimal digits, and the loops over
registers and sprite rows. -/

namespace Sys2Proof.Machine

/-- The register VF. -/
abbrev regVF : Nibble := 0xF

/-- The effective address of a data access, `(I + k) mod 4096` (20_memory.md R53, R156). -/
def State.dataAddr (s : State) (k : Nat) : Addr := BitVec.ofNat 12 (s.I.toNat + k)

/-- `nnn` as a value of `pc` or `I`: zero-extended (R73). -/
def addrWord (a : Addr) : Word := a.setWidth 16

/-- The target of `Bnnn`: the exact sum `nnn + V[0]`, not masked (R117). -/
def State.offsetTarget (s : State) (nnn : Addr) : Word := nnn.setWidth 16 + (s.getV 0).setWidth 16

/-- The index register after `Fx1E`: `(I + V[x]) mod 4096` (R151). -/
def State.indexPlus (s : State) (v : Byte) : Word := BitVec.ofNat 16 ((s.I.toNat + v.toNat) % 4096)

/-- The glyph address of `Fx29`: the whole byte times 5, mod 4096 (R152). -/
def glyphAddr (v : Byte) : Word := BitVec.ofNat 16 (v.toNat * 5 % 4096)

/-- The key that `Ex9E` and `ExA1` test: the one whose code is the value of the register, if it is a code (R181, R182). -/
def keyOperand (v : Byte) : Option Nibble := if v.toNat ≤ 0x0F then some (v.setWidth 4) else none

/-- Hundreds digit of a byte (R153). -/
def bcdHundreds (v : Byte) : Byte := BitVec.ofNat 8 (v.toNat / 100)
/-- Tens digit of a byte (R153). -/
def bcdTens (v : Byte) : Byte := BitVec.ofNat 8 (v.toNat / 10 % 10)
/-- Ones digit of a byte (R153). -/
def bcdOnes (v : Byte) : Byte := BitVec.ofNat 8 (v.toNat % 10)

/-- The first `k` stores of `Fx55`, in ascending order: `V[i]` to `(I + i) mod 4096` (R154). -/
def State.storeRegs (s : State) : Nat → State
  | 0 => s
  | k + 1 => (s.storeRegs k).store (s.dataAddr k) (s.getV (BitVec.ofNat 4 k))

/-- The first `k` loads of `Fx65`, in ascending order: `(I + i) mod 4096` to `V[i]` (R155). -/
def State.loadRegs (s : State) : Nat → State
  | 0 => s
  | k + 1 => (s.loadRegs k).setV (BitVec.ofNat 4 k) (s.read (s.dataAddr k))

/-! ### The sprite (R171): a display with the collision seen so far -/

/-- Toggle one cell; turning a lit cell off is a collision. -/
def toggleCell (d : Pixels × Bool) (i : Nat) : Pixels × Bool :=
  (Pixels.toggle d.1 i, d.2 || Pixels.cell d.1 i)

/-- The first `k` columns of one sprite row, whose byte is `b`, at column `x0` of display row `y`: bit 7 is column 0. -/
def drawCols (x0 y : Nat) (b : Byte) (d : Pixels × Bool) : Nat → Pixels × Bool
  | 0 => d
  | k + 1 =>
    if b.getLsbD (7 - k) then toggleCell (drawCols x0 y b d k) (cellIndex (x0 + k) y)
    else drawCols x0 y b d k

/-- The first `k` rows of the sprite at `(I + row) mod 4096` with its origin at `(x0, y0)`. -/
def State.drawRows (s : State) (x0 y0 : Nat) : Nat → Pixels × Bool
  | 0 => (s.fb, false)
  | k + 1 => drawCols x0 (y0 + k) (s.read (s.dataAddr k)) (s.drawRows x0 y0 k) 8

end Sys2Proof.Machine
end

