-- ==== Sys2Proof/Machine/Flags.lean ====
section
/-! DEFINITION. Every flag computation (10_state.md R22). VF is the only flag, and it is written last (40_dispatch_cycle.md
R95), so that it wins where the destination is VF itself. -/

namespace Sys2Proof.Machine

/-- The carry out of bit 7 of `a + b` (R136). -/
def carryOut (a b : Byte) : Bool := decide (255 < a.toNat + b.toNat)

/-- No borrow in `a - b`, equality included (R137, R139). -/
def noBorrow (a b : Byte) : Bool := decide (b.toNat ≤ a.toNat)

/-- The bit a right shift drops: bit 0 of the old value (R138). -/
def shiftedOutRight (a : Byte) : Bool := a.getLsbD 0

/-- The bit a left shift drops: bit 7 of the old value (R140). -/
def shiftedOutLeft (a : Byte) : Bool := a.getLsbD 7

/-- A flag as VF holds it: 1 or 0. -/
def flagByte (f : Bool) : Byte := if f then 1 else 0

/-- `V[0xF] <- f` (R22). -/
def State.setFlag (s : State) (f : Bool) : State := s.setV regVF (flagByte f)

/-- Write a result and then the flag (R95). -/
def State.setVFlag (s : State) (x : Nibble) (v : Byte) (f : Bool) : State := (s.setV x v).setFlag f

end Sys2Proof.Machine
end

