-- ==== Sys2Proof/Machine/Alu.lean ====
section
/-! DEFINITION. Register load, arithmetic, logic, shifts and random (42_register_alu.md). Each operand is read from the state
the Cycle began with (R95). -/

namespace Sys2Proof.Machine

/-- `6xnn`, load immediate (R130). -/
def exec6xnn (x : Nibble) (nn : Byte) (s : State) : Outcome := (s.setV x nn).finish

/-- `7xnn`, add immediate mod 256; no flag (R131). -/
def exec7xnn (x : Nibble) (nn : Byte) (s : State) : Outcome := (s.setV x (s.getV x + nn)).finish

/-- `8xy0`, copy register (R132). -/
def exec8xy0 (x y : Nibble) (s : State) : Outcome := (s.setV x (s.getV y)).finish

/-- `8xy1`, bitwise OR; VF is not written (R133). -/
def exec8xy1 (x y : Nibble) (s : State) : Outcome := (s.setV x (s.getV x ||| s.getV y)).finish

/-- `8xy2`, bitwise AND; VF is not written (R134). -/
def exec8xy2 (x y : Nibble) (s : State) : Outcome := (s.setV x (s.getV x &&& s.getV y)).finish

/-- `8xy3`, bitwise XOR; VF is not written (R135). -/
def exec8xy3 (x y : Nibble) (s : State) : Outcome := (s.setV x (s.getV x ^^^ s.getV y)).finish

/-- `8xy4`, add with carry out (R136). -/
def exec8xy4 (x y : Nibble) (s : State) : Outcome :=
  (s.setVFlag x (s.getV x + s.getV y) (carryOut (s.getV x) (s.getV y))).finish

/-- `8xy5`, subtract, `V[x] - V[y]` (R137). -/
def exec8xy5 (x y : Nibble) (s : State) : Outcome :=
  (s.setVFlag x (s.getV x - s.getV y) (noBorrow (s.getV x) (s.getV y))).finish

/-- `8xy6`, shift right by one; `y` is not read (R138). -/
def exec8xy6 (x _y : Nibble) (s : State) : Outcome :=
  (s.setVFlag x (s.getV x >>> 1) (shiftedOutRight (s.getV x))).finish

/-- `8xy7`, reverse subtract, `V[y] - V[x]` (R139). -/
def exec8xy7 (x y : Nibble) (s : State) : Outcome :=
  (s.setVFlag x (s.getV y - s.getV x) (noBorrow (s.getV y) (s.getV x))).finish

/-- `8xyE`, shift left by one; `y` is not read (R140). -/
def exec8xyE (x _y : Nibble) (s : State) : Outcome :=
  (s.setVFlag x (s.getV x <<< 1) (shiftedOutLeft (s.getV x))).finish

/-- `Cxnn`, masked random byte (R141): the byte is the Cycle's own `rand8`, which nothing constrains. -/
def execCxnn (x : Nibble) (nn : Byte) (s : State) : Outcome := (s.setV x (s.rand8 &&& nn)).finish

end Sys2Proof.Machine
end

