-- ==== Sys2Proof/Machine/Control.lean ====
section
/-! DEFINITION. Control transfer (41_control_flow.md). -/

namespace Sys2Proof.Machine

/-- `00EE`, return from subroutine (R110). -/
def exec00EE (s : State) : Outcome :=
  match s.pop with
  | some (a, t) => t.finishAt a
  | none => s.report .stackUnderflow

/-- `1nnn`, jump (R111). -/
def exec1nnn (nnn : Addr) (s : State) : Outcome := s.finishAt (addrWord nnn)

/-- `2nnn`, call subroutine (R112). -/
def exec2nnn (nnn : Addr) (s : State) : Outcome :=
  match s.push (s.pc + 2) with
  | some t => t.finishAt (addrWord nnn)
  | none => s.report .stackOverflow

/-- `3xnn`, skip if register equals immediate (R113). -/
def exec3xnn (x : Nibble) (nn : Byte) (s : State) : Outcome := s.skipIf (s.getV x == nn)

/-- `4xnn`, skip if register differs from immediate (R114). -/
def exec4xnn (x : Nibble) (nn : Byte) (s : State) : Outcome := s.skipIf (s.getV x != nn)

/-- `5xy0`, skip if registers equal (R115); the word's low nibble is ignored (R76). -/
def exec5xy0 (x y _n : Nibble) (s : State) : Outcome := s.skipIf (s.getV x == s.getV y)

/-- `9xy0`, skip if registers differ (R116); the word's low nibble is ignored (R76). -/
def exec9xy0 (x y _n : Nibble) (s : State) : Outcome := s.skipIf (s.getV x != s.getV y)

/-- `Bnnn`, jump with offset (R117). -/
def execBnnn (nnn : Addr) (s : State) : Outcome := s.finishAt (s.offsetTarget nnn)

end Sys2Proof.Machine
end

