-- ==== Sys2Proof/Machine/Display.lean ====
section
/-! DEFINITION. The display instructions (44_display.md). -/

namespace Sys2Proof.Machine

/-- `00E0`, clear display (R170). -/
def exec00E0 (s : State) : Outcome := (s.setFb Pixels.allOff).finish

/-- `Dxyn`, draw sprite (R171): VF is the collision of the whole sprite, written once, after it. -/
def execDxyn (x y n : Nibble) (s : State) : Outcome :=
  let d := s.drawRows (s.getV x).toNat (s.getV y).toNat n.toNat
  ((s.setFb d.1).setFlag d.2).finish

end Sys2Proof.Machine
end

