-- ==== Sys2Proof/Machine/Index.lean ====
section
/-! DEFINITION. Index register and memory transfer (43_index_memory.md). No access changes `I` (R156). -/

namespace Sys2Proof.Machine

/-- `Annn`, load index register (R150). -/
def execAnnn (nnn : Addr) (s : State) : Outcome := (s.setI (addrWord nnn)).finish

/-- `Fx1E`, add register to index; no flag (R151). -/
def execFx1E (x : Nibble) (s : State) : Outcome := (s.setI (s.indexPlus (s.getV x))).finish

/-- `Fx29`, point index at a glyph (R152). -/
def execFx29 (x : Nibble) (s : State) : Outcome := (s.setI (glyphAddr (s.getV x))).finish

/-- `Fx33`, store binary-coded decimal: hundreds, tens, ones (R153). -/
def execFx33 (x : Nibble) (s : State) : Outcome :=
  (((s.store (s.dataAddr 0) (bcdHundreds (s.getV x))).store (s.dataAddr 1) (bcdTens (s.getV x))).store
    (s.dataAddr 2) (bcdOnes (s.getV x))).finish

/-- `Fx55`, store registers `V[0]..V[x]` (R154). -/
def execFx55 (x : Nibble) (s : State) : Outcome := (s.storeRegs (x.toNat + 1)).finish

/-- `Fx65`, load registers `V[0]..V[x]` (R155). -/
def execFx65 (x : Nibble) (s : State) : Outcome := (s.loadRegs (x.toNat + 1)).finish

end Sys2Proof.Machine
end

