-- ==== Sys2Proof/Machine/Input.lean ====
section
/-! DEFINITION. The key instructions (45_input.md). The other two phases of `Fx0A` are the Key event and the retiring Cycle
(Machine/Events.lean). -/

namespace Sys2Proof.Machine

/-- `Ex9E`, skip if key pressed; it aborts on a value that is no key code (R181). -/
def execEx9E (x : Nibble) (s : State) : Outcome :=
  match keyOperand (s.getV x) with
  | some k => s.skipIf (s.getKey k)
  | none => abort (.keyIndex (s.getV x))

/-- `ExA1`, skip if key not pressed; it aborts on a value that is no key code (R182). -/
def execExA1 (x : Nibble) (s : State) : Outcome :=
  match keyOperand (s.getV x) with
  | some k => s.skipIf (!s.getKey k)
  | none => abort (.keyIndex (s.getV x))

/-- `Fx0A`, wait for a key press: it enters the wait, and `pc` keeps addressing it (R183). -/
def execFx0A (x : Nibble) (s : State) : Outcome := (s.setExec (.awaitingKey x)).finishAt s.pc

end Sys2Proof.Machine
end

