-- ==== Sys2Proof/Machine/Timers.lean ====
section
/-! DEFINITION. The timer instructions (46_timers.md). -/

namespace Sys2Proof.Machine

/-- `Fx07`, read delay timer (R201). -/
def execFx07 (x : Nibble) (s : State) : Outcome := (s.setV x s.DT).finish

/-- `Fx15`, set delay timer (R202). -/
def execFx15 (x : Nibble) (s : State) : Outcome := (s.setDT (s.getV x)).finish

/-- `Fx18`, set sound timer (R203). -/
def execFx18 (x : Nibble) (s : State) : Outcome := (s.setST (s.getV x)).finish

end Sys2Proof.Machine
end

