-- ==== Sys2Proof/Machine/Events.lean ====
section
/-! DEFINITION. The four events (00_scope.md R7): the dispatch cycle (40_dispatch_cycle.md), the timer tick (46_timers.md), the
key event (45_input.md) and the load (70_reset_and_hazards.md); which one comes next; and what the host sees of one. -/

namespace Sys2Proof.Machine

/-- `Cycle(rand8)` (R90): require a Load, wait check, fetch, decode, execute. -/
def cycle (r : Byte) (s : State) : Outcome :=
  if s.loaded then
    match s.exec with
    | .awaitingKey _ => .next (s.setResult (some .idle))
    | .resuming => .next (((s.setPc (s.pc + 2)).setExec .running).setResult (some .retired))
    | .running =>
      match s.fetch with
      | .error f => abort f
      | .ok w =>
        match decode w with
        | .error _ => s.report (.unknownOpcode w)
        | .ok i => exec i (s.setRand8 r)
  else .refused .notLoaded

/-- A timer one Tick later: it stops at 0 (R200). -/
def tickTimer (v : Byte) : Byte := if v = 0 then 0 else v - 1

/-- `Tick` (R200): in every execution state. -/
def tick (s : State) : Outcome :=
  if s.loaded then .next (((s.setDT (tickTimer s.DT)).setST (tickTimer s.ST)).setResult none)
  else .refused .notLoaded

/-- Latch a key code for the `Fx0A` that waits (R184). -/
def State.latchKey (s : State) (r code : Nibble) : State := (s.setV r (code.setWidth 8)).setExec .resuming

/-- `Key(code, pressed)` (R180): only a press transition resolves a wait (R184). -/
def key (code : Nibble) (pressed : Bool) (s : State) : Outcome :=
  if s.loaded then
    let t := (s.setKey code pressed).setResult none
    match s.exec with
    | .awaitingKey r => .next (if pressed && !s.getKey code then t.latchKey r code else t)
    | .running => .next t
    | .resuming => .next t
  else .refused .notLoaded

/-- The longest program: 0xE00 bytes (R5, R240). -/
abbrev maxProgram : Nat := 0xE00

/-- The state after a Load that succeeds: every component at its reset value and the image at 0x200 (R34, R240). -/
def State.afterLoad (s : State) (bytes : List Byte) : State :=
  { s with
    mem := Memory.image s.glyph 0x200 bytes
    V := Vector.replicate 16 0
    I := 0
    pc := 0x200
    stack := []
    fb := Pixels.allOff
    keys := Vector.replicate 16 false
    exec := .running
    DT := 0
    ST := 0
    loaded := true
    result := some .ok }

/-- `Load(bytes)` (R240, R241): all-or-nothing, allowed in any state, the only reset. -/
def load (bytes : List Byte) (s : State) : Outcome :=
  if maxProgram < bytes.length then .next (s.setResult (some (.refused bytes.length)))
  else .next (s.afterLoad bytes)

/-- One event. -/
def event (e : Event) (s : State) : Outcome :=
  match e with
  | .cycle r => cycle r s
  | .tick => tick s
  | .key code pressed => key code pressed s
  | .load bytes => load bytes s

/-- The next event of the host's schedule: the first in the inbox, and a Cycle with a free random byte where the inbox is
empty (assumption log 2, 3). -/
def nextEvent (s : State) : Outcome :=
  match s.inbox with
  | [] => cycle (Config.rand8 s.draws) (s.setDraws (s.draws + 1))
  | e :: rest => event e (s.setInbox rest)

/-- What the host sees of an event: the state after it, its result in the field `result`. An aborted event changes nothing and
its result is the condition (R12, R98, R215, R216); an event that is not accepted changes nothing and returns nothing (R35). -/
def deliver (e : Event) (s : State) : State :=
  match event e s with
  | .next t => t
  | .fault f => s.setResult (some (.aborted f))
  | .refused _ => s.setResult none

/-- The state in which the very next step fetches the word at `pc`: a program is loaded, nothing is waited for and no other
event comes first. -/
def State.readyToFetch (s : State) : State := ((s.setLoaded true).setExec .running).setInbox []

end Sys2Proof.Machine
end

