-- ==== Sys2Proof/Machine/Step.lean ====
section
/-! DEFINITION. One step is one event (00_scope.md R7). -/

namespace Sys2Proof.Machine

/-- One step of the machine: the next event, whole (R7, R99). -/
def step (s : State) : Host.Outcome State Fault Refusal := nextEvent s

/-- The state with an instruction, given as the opcode table numbers its bits, laid where the next step fetches. -/
def State.withFetchWord (s : State) (nbits w : Nat) : State := s.readyToFetch.placeWord (tableWord nbits w)

end Sys2Proof.Machine
end

