-- ==== Sys2Proof/Safety.lean ====
section
/-! DEFINITION. What claims about the machine are stated in: which state an event changes (10_state.md R37, 00_scope.md R8), the
invariant of the state, the cells a sprite lights, and the resting states of a run (70_reset_and_hazards.md R247). -/

namespace Sys2Proof.Machine

/-- The pieces of the state (R20), and after them the model's own. -/
inductive Part where
  | mem | V | I | pc | stack | fb | keys | exec | DT | ST | loaded
  | glyph | inbox | rand8 | draws | result
  deriving DecidableEq, Repr

/-- Two states hold the same in one piece, as the machine's own reads see it. -/
def State.agree (p : Part) (s t : State) : Prop :=
  match p with
  | .mem => ∀ a : Addr, t.read a = s.read a
  | .V => ∀ r : Nibble, t.getV r = s.getV r
  | .I => t.I = s.I
  | .pc => t.pc = s.pc
  | .stack => t.stack = s.stack
  | .fb => ∀ i < 2048, t.cell i = s.cell i
  | .keys => ∀ k : Nibble, t.getKey k = s.getKey k
  | .exec => t.exec = s.exec
  | .DT => t.DT = s.DT
  | .ST => t.ST = s.ST
  | .loaded => t.loaded = s.loaded
  | .glyph => t.glyph = s.glyph
  | .inbox => t.inbox = s.inbox
  | .rand8 => t.rand8 = s.rand8
  | .draws => t.draws = s.draws
  | .result => t.result = s.result

/-- The frame: from `s` to `t` every piece that is not listed is unchanged (R8). -/
def State.changesOnly (ps : List Part) (s t : State) : Prop := ∀ p, p ∉ ps → State.agree p s t

end Sys2Proof.Machine

namespace Sys2Proof

open Machine

/-- What an instruction may change: the access matrix R37, read by rows. -/
def Instr.writes : Instr → List Part
  | .op00E0 => [.fb, .pc, .result]
  | .op00EE | .op2nnn _ => [.stack, .pc, .result]
  | .op1nnn _ | .op3xnn _ _ | .op4xnn _ _ | .op5xy0 _ _ _ | .op9xy0 _ _ _ | .opBnnn _ | .opEx9E _ | .opExA1 _ => [.pc, .result]
  | .op6xnn _ _ | .op7xnn _ _ | .op8xy0 _ _ | .op8xy1 _ _ | .op8xy2 _ _ | .op8xy3 _ _ | .op8xy4 _ _
  | .op8xy5 _ _ | .op8xy6 _ _ | .op8xy7 _ _ | .op8xyE _ _ | .opCxnn _ _ | .opFx07 _ | .opFx65 _ => [.V, .pc, .result]
  | .opAnnn _ | .opFx1E _ | .opFx29 _ => [.I, .pc, .result]
  | .opDxyn _ _ _ => [.V, .fb, .pc, .result]
  | .opFx0A _ => [.exec, .result]
  | .opFx15 _ => [.DT, .pc, .result]
  | .opFx18 _ => [.ST, .pc, .result]
  | .opFx33 _ | .opFx55 _ => [.mem, .pc, .result]

/-- The general registers an instruction may change: its destination, and VF where it is written as the flag (R22, R37). -/
def Instr.writesReg (i : Instr) (r : Nibble) : Bool :=
  match i with
  | .op00E0 | .op00EE | .op1nnn _ | .op2nnn _ | .op3xnn _ _ | .op4xnn _ _ | .op5xy0 _ _ _ | .op9xy0 _ _ _
  | .opAnnn _ | .opBnnn _ | .opEx9E _ | .opExA1 _ | .opFx0A _ | .opFx15 _ | .opFx18 _ | .opFx1E _ | .opFx29 _
  | .opFx33 _ | .opFx55 _ => false
  | .op6xnn x _ | .op7xnn x _ | .op8xy0 x _ | .op8xy1 x _ | .op8xy2 x _ | .op8xy3 x _ | .opCxnn x _ | .opFx07 x => r == x
  | .op8xy4 x _ | .op8xy5 x _ | .op8xy6 x _ | .op8xy7 x _ | .op8xyE x _ => r == x || r == regVF
  | .opDxyn _ _ _ => r == regVF
  | .opFx65 x => decide (r.toNat ≤ x.toNat)

/-- The instructions that write VF as the flag (R22). -/
def Instr.writesFlag : Instr → Bool
  | .op00E0 | .op00EE | .op1nnn _ | .op2nnn _ | .op3xnn _ _ | .op4xnn _ _ | .op5xy0 _ _ _ | .op6xnn _ _
  | .op7xnn _ _ | .op8xy0 _ _ | .op8xy1 _ _ | .op8xy2 _ _ | .op8xy3 _ _ | .op9xy0 _ _ _ | .opAnnn _ | .opBnnn _
  | .opCxnn _ _ | .opEx9E _ | .opExA1 _ | .opFx07 _ | .opFx0A _ | .opFx15 _ | .opFx18 _ | .opFx1E _ | .opFx29 _
  | .opFx33 _ | .opFx55 _ | .opFx65 _ => false
  | .op8xy4 _ _ | .op8xy5 _ _ | .op8xy6 _ _ | .op8xy7 _ _ | .op8xyE _ _ | .opDxyn _ _ _ => true

/-- The addresses an instruction stores to, from the state it starts in (R53). -/
def Instr.storesTo (i : Instr) (s : Machine.State) : List Addr :=
  match i with
  | .op00E0 | .op00EE | .op1nnn _ | .op2nnn _ | .op3xnn _ _ | .op4xnn _ _ | .op5xy0 _ _ _ | .op6xnn _ _
  | .op7xnn _ _ | .op8xy0 _ _ | .op8xy1 _ _ | .op8xy2 _ _ | .op8xy3 _ _ | .op8xy4 _ _ | .op8xy5 _ _
  | .op8xy6 _ _ | .op8xy7 _ _ | .op8xyE _ _ | .op9xy0 _ _ _ | .opAnnn _ | .opBnnn _ | .opCxnn _ _
  | .opDxyn _ _ _ | .opEx9E _ | .opExA1 _ | .opFx07 _ | .opFx0A _ | .opFx15 _ | .opFx18 _ | .opFx1E _
  | .opFx29 _ | .opFx65 _ => []
  | .opFx33 _ => [s.dataAddr 0, s.dataAddr 1, s.dataAddr 2]
  | .opFx55 x => (List.range (x.toNat + 1)).map s.dataAddr

end Sys2Proof

namespace Sys2Proof.Machine

/-- What a Cycle may change, from the state it starts in (R37, R98). -/
def State.cycleWrites (s : State) : List Part :=
  match s.exec with
  | .awaitingKey _ => [.result]
  | .resuming => [.pc, .exec, .result]
  | .running =>
    match s.fetch with
    | .error _ => []
    | .ok w =>
      match decode w with
      | .error _ => [.pc, .result]
      | .ok i => .rand8 :: i.writes

/-- What an event may change, from the state it starts in (R7, R37). -/
def Event.writes (e : Event) (s : State) : List Part :=
  match e with
  | .cycle _ => s.cycleWrites
  | .tick => [.DT, .ST, .result]
  | .key _ _ => [.V, .keys, .exec, .result]
  | .load _ => [.mem, .V, .I, .pc, .stack, .fb, .keys, .exec, .DT, .ST, .loaded, .result]

/-- The invariant of the state: memory is in its canonical form; the index register holds 12 bits (R23); the stack is at most
16 deep (R26) and holds addresses after an instruction; `pc` is at most 0x10FE (R25); while an `Fx0A` is not retired, `pc`
addresses it, so it is at most 0xFFE (R31). -/
structure State.Inv (s : State) : Prop where
  mem_wf : Memory.wf s.glyph s.mem
  index : s.I.toNat ≤ 0xFFF
  depth : s.stack.length ≤ 16
  entries : ∀ a ∈ s.stack, a.toNat ≤ 0x1000
  pc_le : s.pc.toNat ≤ 0x10FE
  suspended : s.exec ≠ .running → s.pc.toNat ≤ 0xFFE

/-- Cell `i` is addressed by a set bit of the `n`-row sprite at `I` with its origin at `(x0, y0)` (R28, R171). -/
def State.spriteLights (s : State) (x0 y0 : Byte) (n : Nibble) (i : Nat) : Prop :=
  ∃ row < n.toNat, ∃ col < 8, (s.read (s.dataAddr row)).getLsbD (7 - col) = true ∧
    i = (x0.toNat + col) % 64 + (y0.toNat + row) % 32 * 64

/-- Resting state (a), the idle loop: running, and the word at `pc` is a jump to `pc` (R247). -/
def State.idleLoop (s : State) : Prop :=
  s.loaded = true ∧ s.exec = .running ∧ ∃ w nnn, s.fetch = .ok w ∧ decode w = .ok (.op1nnn nnn) ∧ s.pc = addrWord nnn

/-- Resting state (b), blocked: waiting for a key (R247). -/
def State.blocked (s : State) : Prop := s.loaded = true ∧ ∃ r, s.exec = .awaitingKey r

/-- Resting state (c), faulted: running, and the next Cycle aborts (R215, R216, R247). -/
def State.faulted (s : State) : Prop :=
  s.loaded = true ∧ s.exec = .running ∧
    (0xFFF ≤ s.pc.toNat ∨ ∃ w x, s.fetch = .ok w ∧
      (decode w = .ok (.opEx9E x) ∨ decode w = .ok (.opExA1 x)) ∧ 0x0F < (s.getV x).toNat)

/-- The next event of the schedule is a Cycle: the inbox says so, or it is empty (assumption log 3). -/
def State.cycleNext (s : State) : Prop := s.inbox = [] ∨ ∃ r rest, s.inbox = .cycle r :: rest

/-- The state after the host has issued a list of events in order (R7). -/
def State.deliverAll (s : State) (es : List Event) : State := es.foldl (fun t e => deliver e t) s

end Sys2Proof.Machine
end

