-- ==== Sys2Proof/Certificates/Slice0/Obligations.lean ====
section
/-! DEFINITION. The statements for the provers. Each docstring names the rules of spec/ it formalises; where a clause rests on a
choice (of the spec: D<n> of 92_eei_decisions.md; of the model: log <n> of notes/assumptions) it says so. `changesOnly` is the
frame of Safety.lean: every piece of state that is not listed reads as before. That an instruction changes nothing its rule does
not name is the frame rule R8 as the spec reads it (D22); the names of the results in the field `result` are D23. A statement with
basis `stated` has neither, but where its own rule says so; the frames of its instructions are the three statements over all
instructions at the end, and their results are the statement about the table of R98. -/

open Sys2Proof Sys2Proof.Machine

/-! ### Reset and Load -/

/-- The state after reset (10_state.md R34). That `pc` is 0x0200 and that the keys are released are the spec's own decisions D3
and D18; that reset is a Load of no bytes is the model's choice (log 7). The glyph table is whatever the field `glyph` holds. -/
def Obligations.ResetHoldsTheResetValues : Prop :=
  (∀ a : Addr, State.reset.read a = if h : a.toNat < 80 then State.reset.glyph[a.toNat] else 0) ∧
  (∀ x : Nibble, State.reset.getV x = 0) ∧ State.reset.I = 0 ∧ State.reset.pc = 0x0200 ∧ State.reset.stack = [] ∧
  (∀ i < 2048, State.reset.cell i = false) ∧ (∀ k : Nibble, State.reset.getKey k = false) ∧
  State.reset.exec = .running ∧ State.reset.DT = 0 ∧ State.reset.ST = 0 ∧ State.reset.loaded = true

/-- A Load of at most 0xE00 bytes, in any state, answers `Ok` and leaves every piece of state at the value of R34, with byte `i`
of the image at 0x200 + `i`, for every glyph table (R34, R240, R242; `pc` D3, keys D18, an empty image D30). -/
def Obligations.LoadResetsEverythingAndInstallsTheImage : Prop :=
  ∀ (bytes : List Byte) (s : State), bytes.length ≤ 0xE00 → ∃ t, event (.load bytes) s = .next t ∧
    (∀ a : Addr, t.read a =
      if h : 0x200 ≤ a.toNat ∧ a.toNat < 0x200 + bytes.length then bytes[a.toNat - 0x200]
      else if h : a.toNat < 80 then s.glyph[a.toNat] else 0) ∧
    (∀ x : Nibble, t.getV x = 0) ∧ t.I = 0 ∧ t.pc = 0x0200 ∧ t.stack = [] ∧
    (∀ i < 2048, t.cell i = false) ∧ (∀ k : Nibble, t.getKey k = false) ∧
    t.exec = .running ∧ t.DT = 0 ∧ t.ST = 0 ∧ t.loaded = true ∧ t.result = some .ok ∧
    s.changesOnly ((Event.load bytes).writes s) t

/-- A Load of more than 0xE00 bytes is refused whole: it changes nothing and its result is `OutOfBounds(len)` (R214, R241; U12).
That the step then answers a next state that carries the result, and not a refusal of its own, is the model's inference (log 24). -/
def Obligations.LoadTooLongIsRefusedWhole : Prop :=
  ∀ (bytes : List Byte) (s : State), 0xE00 < bytes.length → ∃ t, event (.load bytes) s = .next t ∧
    t.result = some (.refused bytes.length) ∧ s.changesOnly [.result] t

/-- The created state is all zero and not loaded, in every piece of state of R20 and for every glyph table, and until a Load has
succeeded a Cycle, a Tick and a Key are refused (10_state.md R35, 70 R243; the spec's own decision D17). R35 says only "all zero":
that the zero of the execution state is `Running` is the model's reading (log 21). -/
def Obligations.CreatedMachineIsZeroAndRefusesUntilLoaded : Prop :=
  (∀ g : Glyph, (∀ a : Addr, (State.created g).read a = 0) ∧ (∀ x : Nibble, (State.created g).getV x = 0) ∧
    (State.created g).I = 0 ∧ (State.created g).pc = 0 ∧ (State.created g).stack = [] ∧
    (∀ i < 2048, (State.created g).cell i = false) ∧ (∀ k : Nibble, (State.created g).getKey k = false) ∧
    (State.created g).exec = .running ∧ (State.created g).DT = 0 ∧ (State.created g).ST = 0 ∧
    (State.created g).loaded = false) ∧
  ∀ s : State, s.loaded = false → (∀ r, event (.cycle r) s = .refused .notLoaded) ∧
    event .tick s = .refused .notLoaded ∧ ∀ code pressed, event (.key code pressed) s = .refused .notLoaded

/-! ### Encoding -/

/-- Decoding the word of any instruction gives it back, with every operand at every value of its field (R71 to R75). For `5xy0`
and `9xy0` R72 gives the operands `x` and `y` alone: that the low nibble is ignored is D7, and that the constructor carries it as
a third operand, so that it comes back too at every value, is the model's choice (log 15). -/
def Obligations.DecodeOfEncodeIsTheInstruction : Prop := ∀ i : Instr, decode (encode i) = .ok i

/-- Every word that decodes is the word of the instruction it decodes to (R71 to R76). That this holds of every `5xyN` and `9xyN`
too, so that no bit of a word is lost, is the model's choice (log 15): R76 says that their low nibble is ignored (D7). -/
def Obligations.EncodeOfDecodeIsTheWord : Prop := ∀ (w : Word) (i : Instr), decode w = .ok i → encode i = w

/-- The decode procedure of R74 and the opcode map of R75 agree: a word matches a row exactly when it decodes to an instruction
of that row (so no two rows overlap), and it is `UNKNOWN` exactly when it matches none (R80; the sub-codes are D7). -/
def Obligations.DecoderAgreesWithTheOpcodeMap : Prop :=
  ∀ w : Word,
    (∀ row ∈ opcodeTable, w &&& row.mask = row.pattern ↔ ∃ i : Instr, decode w = .ok i ∧ i.row = row) ∧
    (decode w = .error (.unknownOpcode w) ↔ ∀ row ∈ opcodeTable, w &&& row.mask ≠ row.pattern)

/-- Words of the spec's own examples and corner cases decode as it says: 6A3C (S3), 7A01 (S4), 8AB4 (S5), 8AB5 (S6), D125 (P3a),
F50A (S9, T100), 5AB7 (T12), 9AB1 (T15), 220A and 00EE (P2), 01E0 (T122), 8AB8 (T50), all of 95_test_vectors.md. That 5AB7 and
9AB1 are instructions and 01E0 is none is D7, and the third operands 7 and 1 are the model's choice (log 15). -/
def Obligations.SampleWordsDecodeAsTheSpecSays : Prop :=
  decode 0x6A3C = .ok (.op6xnn 0xA 0x3C) ∧ decode 0x7A01 = .ok (.op7xnn 0xA 0x01) ∧
  decode 0x8AB4 = .ok (.op8xy4 0xA 0xB) ∧ decode 0x8AB5 = .ok (.op8xy5 0xA 0xB) ∧
  decode 0xD125 = .ok (.opDxyn 0x1 0x2 0x5) ∧ decode 0xF50A = .ok (.opFx0A 0x5) ∧
  decode 0x5AB7 = .ok (.op5xy0 0xA 0xB 0x7) ∧ decode 0x9AB1 = .ok (.op9xy0 0xA 0xB 0x1) ∧
  decode 0x220A = .ok (.op2nnn 0x20A) ∧ decode 0x00EE = .ok .op00EE ∧
  decode 0x01E0 = .error (.unknownOpcode 0x01E0) ∧ decode 0x8AB8 = .error (.unknownOpcode 0x8AB8)

/-! ### The dispatch cycle -/

/-- The fetch reads the bytes at `pc` and `pc + 1`, the first one high, at any parity of `pc`, and aborts with the `pc` at 0xFFF
and above (R54, R55, R57, R93; that it does not wrap is D5, that an odd `pc` is fetched literally is D4). -/
def Obligations.FetchIsBigEndianAndDoesNotWrap : Prop :=
  ∀ s : State,
    (s.pc.toNat < 0xFFF →
      s.fetch = .ok (s.read (BitVec.ofNat 12 s.pc.toNat) ++ s.read (BitVec.ofNat 12 (s.pc.toNat + 1)))) ∧
    (0xFFF ≤ s.pc.toNat → s.fetch = .error (.outOfBounds s.pc))

/-- A step whose event is a Cycle runs the instruction that the fetched word decodes to, on the state with that Cycle's random
byte (R90, R95). The event and its byte come from the inbox, or are the model's Cycle with a free byte (log 2, log 3). -/
def Obligations.StepRunsTheDecodedInstruction : Prop :=
  ∀ (s : State) (w : Word) (i : Instr), s.loaded = true → s.exec = .running → s.fetch = .ok w → decode w = .ok i →
    (s.inbox = [] → step s = exec i ((s.setDraws (s.draws + 1)).setRand8 (Config.rand8 s.draws))) ∧
    (∀ r rest, s.inbox = .cycle r :: rest → step s = exec i ((s.setInbox rest).setRand8 r))

/-- A step with an event in the inbox is that event, whole, and takes it out (R7, R99; the inbox is the model's, log 3). -/
def Obligations.StepTakesTheNextEvent : Prop :=
  ∀ (s : State) (e : Event) (rest : List Event), s.inbox = e :: rest → step s = event e (s.setInbox rest)

/-- A word that is no instruction is reported and acts as a two-byte no-op: nothing but `pc` changes (R97, S11). -/
def Obligations.UnknownWordIsAReportedNoOp : Prop :=
  ∀ (s : State) (r : Byte) (w : Word), s.loaded = true → s.exec = .running → s.fetch = .ok w →
    decode w = .error (.unknownOpcode w) → ∃ t, event (.cycle r) s = .next t ∧ t.pc = s.pc + 2 ∧
      t.result = some (.reported (.unknownOpcode w)) ∧ s.changesOnly [.pc, .result] t

/-- While a key is awaited a Cycle is `Idle`: it changes no state, whatever its random byte, and cannot abort, whatever `pc` is;
any number of such Cycles may pass, and Ticks and Keys are processed in between as always (R91, R180, R186, R200; that one Tick
steps both timers is D33, log 26). -/
def Obligations.CycleIsIdleWhileAwaitingAKey : Prop :=
  ∀ s : State, s.blocked →
    (∀ r, ∃ t, event (.cycle r) s = .next t ∧ t.result = some .idle ∧ s.changesOnly [.result] t ∧ t.blocked) ∧
    (∃ t, event .tick s = .next t ∧ t.DT.toNat = s.DT.toNat - 1 ∧ t.ST.toNat = s.ST.toNat - 1) ∧
    ∀ code pressed, ∃ t, event (.key code pressed) s = .next t ∧ t.getKey code = pressed

/-- The Cycle after the key press only adds the deferred 2 to `pc` and runs again (R92; three phases are D9). -/
def Obligations.RetiringCycleOnlyAddsTwo : Prop :=
  ∀ (s : State) (r : Byte), s.loaded = true → s.exec = .resuming → ∃ t, event (.cycle r) s = .next t ∧
    t.pc = s.pc + 2 ∧ t.exec = .running ∧ t.result = some .retired ∧ s.changesOnly [.pc, .exec, .result] t

/-- `S9`: an `Fx0A`, a press transition and one more Cycle leave the key code in the target register, `pc` two further and the
machine running, with every other register as before (R183, R184, R92; D9, D10). -/
def Obligations.KeyWaitLatchesTheKeyAndResumes : Prop :=
  ∀ (s : State) (r1 r2 : Byte) (w : Word) (x code : Nibble), s.loaded = true → s.exec = .running → s.fetch = .ok w →
    decode w = .ok (.opFx0A x) → s.getKey code = false → ∃ t1 t2 t3,
      event (.cycle r1) s = .next t1 ∧ t1.exec = .awaitingKey x ∧ t1.pc = s.pc ∧
      event (.key code true) t1 = .next t2 ∧ t2.exec = .resuming ∧ t2.pc = s.pc ∧
      event (.cycle r2) t2 = .next t3 ∧ t3.exec = .running ∧ t3.pc = s.pc + 2 ∧
      t3.getV x = code.setWidth 8 ∧ (∀ y, y ≠ x → t3.getV y = s.getV y) ∧
      s.changesOnly [.V, .pc, .keys, .rand8, .result] t3

/-- The transition table of the execution state, for every state and every event (R185; `Resuming` is D9, what a
press transition is, is D10). -/
def Obligations.ExecutionStateFollowsItsTable : Prop :=
  ∀ (s t : State) (e : Event), s.loaded = true → event e s = .next t →
    (∀ r, e = .cycle r → s.exec = .running → (∀ w x, s.fetch = .ok w → decode w = .ok (.opFx0A x) → t.exec = .awaitingKey x) ∧
      ((∀ w x, s.fetch = .ok w → decode w ≠ .ok (.opFx0A x)) → t.exec = .running)) ∧
    (∀ r x, e = .cycle r → s.exec = .awaitingKey x → t.exec = .awaitingKey x) ∧
    (∀ r, e = .cycle r → s.exec = .resuming → t.exec = .running) ∧
    (e = .tick → t.exec = s.exec) ∧
    (∀ c, e = .key c false → t.exec = s.exec) ∧
    (∀ c, e = .key c true → (s.getKey c = true ∨ ∀ x, s.exec ≠ .awaitingKey x) → t.exec = s.exec) ∧
    (∀ c x, e = .key c true → s.getKey c = false → s.exec = .awaitingKey x → t.exec = .resuming) ∧
    (∀ bytes, e = .load bytes → bytes.length ≤ 0xE00 → t.exec = .running) ∧
    (∀ bytes, e = .load bytes → 0xE00 < bytes.length → t.exec = s.exec)

/-! ### Tick and Key -/

/-- A Tick steps both timers down by one unless they are 0, in every execution state, and changes nothing else (R200, R186;
one Tick for both timers is D33). -/
def Obligations.TickStepsBothTimers : Prop :=
  ∀ s : State, s.loaded = true → ∃ t, event .tick s = .next t ∧
    t.DT.toNat = s.DT.toNat - 1 ∧ t.ST.toNat = s.ST.toNat - 1 ∧ t.result = none ∧
    s.changesOnly [.DT, .ST, .result] t

/-- After `n` Ticks each timer holds its value less `n`, and 0 from then on: a timer loaded with `v` reaches 0 after exactly `v`
Ticks and not before (R200; one Tick for both timers is D33). -/
def Obligations.TimersCountDownOnePerTick : Prop :=
  ∀ (n : Nat) (s : State), s.loaded = true →
    (s.deliverAll (List.replicate n .tick)).DT.toNat = s.DT.toNat - n ∧
    (s.deliverAll (List.replicate n .tick)).ST.toNat = s.ST.toNat - n ∧
    s.changesOnly [.DT, .ST, .result] (s.deliverAll (List.replicate n .tick))

/-- A Key event sets its own slot, and only a press transition during a wait does more: it latches the code and ends the wait
(R180, R184; what a press transition is, is D10). -/
def Obligations.KeyEventUpdatesItsSlotAndMayEndTheWait : Prop :=
  ∀ (s : State) (code : Nibble) (pressed : Bool), s.loaded = true → ∃ t, event (.key code pressed) s = .next t ∧
    t.getKey code = pressed ∧ (∀ k, k ≠ code → t.getKey k = s.getKey k) ∧ t.result = none ∧
    (∀ x, s.exec = .awaitingKey x → pressed = true → s.getKey code = false →
      t.getV x = code.setWidth 8 ∧ t.exec = .resuming ∧ (∀ y, y ≠ x → t.getV y = s.getV y) ∧
      s.changesOnly [.keys, .V, .exec, .result] t) ∧
    ((pressed = false ∨ s.getKey code = true ∨ ∀ x, s.exec ≠ .awaitingKey x) → s.changesOnly [.keys, .result] t)

/-! ### Display -/

/-- `00E0` turns every cell off and changes nothing else but `pc` (R170). -/
def Obligations.ClearTurnsEveryCellOff : Prop :=
  decode 0x00E0 = .ok .op00E0 ∧
  ∀ s : State, ∃ t, exec .op00E0 s = .next t ∧ (∀ i < 2048, t.cell i = false) ∧ t.pc = s.pc + 2 ∧
    t.result = some .executed ∧ s.changesOnly [.fb, .pc, .result] t

/-- `Dxyn` toggles exactly the cells that a set bit of the sprite addresses, and VF is 1 exactly when one of them was on, for
any registers (VF too) and any height, 0 included (R171, R173; bit 7 is column 0 by D13, height 0 by D28). -/
def Obligations.DrawTogglesTheSpriteAndReportsCollision : Prop :=
  ∀ (x y n : Nibble) (s : State), ∃ t, exec (.opDxyn x y n) s = .next t ∧
    (∀ i < 2048, (s.spriteLights (s.getV x) (s.getV y) n i → t.cell i = !s.cell i) ∧
      (¬s.spriteLights (s.getV x) (s.getV y) n i → t.cell i = s.cell i)) ∧
    ((∃ i < 2048, s.spriteLights (s.getV x) (s.getV y) n i ∧ s.cell i = true) → t.getV regVF = 1) ∧
    ((∀ i < 2048, s.spriteLights (s.getV x) (s.getV y) n i → s.cell i = false) → t.getV regVF = 0) ∧
    (∀ r, r ≠ regVF → t.getV r = s.getV r) ∧ t.pc = s.pc + 2 ∧ t.result = some .executed ∧
    s.changesOnly [.V, .fb, .pc, .result] t

/-- The same sprite drawn twice restores the display (R171 (h), R173 (a)), and the second draw reports a collision exactly when a
set bit of the sprite addresses a cell that was off before the first (log 28). `u` is any state with the display that the first
draw left and the same sprite and origin. -/
def Obligations.DrawingTwiceRestoresTheDisplay : Prop :=
  ∀ (x y n : Nibble) (s t u : State), exec (.opDxyn x y n) s = .next t → (∀ i < 2048, u.cell i = t.cell i) →
    (∀ a : Addr, u.read a = s.read a) → u.I = s.I → u.getV x = s.getV x → u.getV y = s.getV y →
    ∃ v, exec (.opDxyn x y n) u = .next v ∧ (∀ i < 2048, v.cell i = s.cell i) ∧
      ((∃ i < 2048, s.spriteLights (s.getV x) (s.getV y) n i ∧ s.cell i = false) → v.getV regVF = 1) ∧
      ((∀ i < 2048, s.spriteLights (s.getV x) (s.getV y) n i → s.cell i = true) → v.getV regVF = 0)

/-! ### Control transfer -/

/-- `00EE` sets `pc` to the newest entry and removes it, with no further 2; on an empty stack it is reported and `pc` advances by
2 with the stack still empty (R110; the amount 2 is D12). -/
def Obligations.ReturnPopsThePcOrReportsUnderflow : Prop :=
  decode 0x00EE = .ok .op00EE ∧
  (∀ (s : State) (a : Word) (rest : List Word), s.stack = a :: rest → ∃ t, exec .op00EE s = .next t ∧ t.pc = a ∧
    t.stack = rest ∧ t.result = some .executed ∧ s.changesOnly [.stack, .pc, .result] t) ∧
  ∀ s : State, s.stack = [] → ∃ t, exec .op00EE s = .next t ∧ t.pc = s.pc + 2 ∧
    t.result = some (.reported .stackUnderflow) ∧ s.changesOnly [.pc, .result] t

/-- `1nnn` sets `pc` to any 12-bit `nnn`; where `pc` is `nnn` already, the Cycle is `Executed` and changes nothing (R111). -/
def Obligations.JumpSetsThePc : Prop :=
  ∀ (nnn : Addr) (s : State), decode (shapeA 0x1 nnn) = .ok (.op1nnn nnn) ∧ ∃ t, exec (.op1nnn nnn) s = .next t ∧
    t.pc.toNat = nnn.toNat ∧ (s.pc.toNat = nnn.toNat → t.result = some .executed ∧ s.changesOnly [.result] t)

/-- `2nnn` pushes `pc + 2` and sets `pc` to `nnn`; with 16 entries on the stack it is reported, nothing is pushed, the jump is
not taken and `pc` advances by 2 (R112; that last effect is D12). -/
def Obligations.CallPushesTheReturnAddressOrReportsOverflow : Prop :=
  ∀ (nnn : Addr) (s : State), decode (shapeA 0x2 nnn) = .ok (.op2nnn nnn) ∧
    (s.stack.length < 16 → ∃ t, exec (.op2nnn nnn) s = .next t ∧ t.stack = (s.pc + 2) :: s.stack ∧
      t.pc.toNat = nnn.toNat ∧ t.result = some .executed ∧ s.changesOnly [.stack, .pc, .result] t) ∧
    (s.stack.length = 16 → ∃ t, exec (.op2nnn nnn) s = .next t ∧ t.pc = s.pc + 2 ∧
      t.result = some (.reported .stackOverflow) ∧ s.changesOnly [.pc, .result] t)

/-- `S8`: a `2nnn` with room on the stack, and then a `00EE`, leave `pc` at the call's `pc + 2` and everything else as it was
(R110, R112). -/
def Obligations.CallThenReturnComesBack : Prop :=
  ∀ (nnn : Addr) (s : State), s.stack.length < 16 → ∃ t u, exec (.op2nnn nnn) s = .next t ∧ exec .op00EE t = .next u ∧
    u.pc = s.pc + 2 ∧ s.changesOnly [.pc, .result] u

/-- `3xnn` and `4xnn` skip the next two bytes when `V[x]` equals, and when it differs from, the immediate (R113, R114). -/
def Obligations.ImmediateSkipsCompareTheRegister : Prop :=
  ∀ (x : Nibble) (nn : Byte) (s : State),
    decode (shapeXI 0x3 x nn) = .ok (.op3xnn x nn) ∧ decode (shapeXI 0x4 x nn) = .ok (.op4xnn x nn) ∧
    (∃ t, exec (.op3xnn x nn) s = .next t ∧ t.pc = (if s.getV x = nn then s.pc + 4 else s.pc + 2) ∧
      t.result = some .executed ∧ s.changesOnly [.pc, .result] t) ∧
    ∃ t, exec (.op4xnn x nn) s = .next t ∧ t.pc = (if s.getV x ≠ nn then s.pc + 4 else s.pc + 2) ∧
      t.result = some .executed ∧ s.changesOnly [.pc, .result] t

/-- `5xyN` and `9xyN`, with any low nibble, skip when the registers are equal, and when they differ; with `x = y` the first
always skips and the second never (R115, R116, R76; that the low nibble is ignored is D7). -/
def Obligations.RegisterSkipsCompareTwoRegisters : Prop :=
  ∀ (x y n : Nibble) (s : State),
    decode (shapeXY 0x5 x y n) = .ok (.op5xy0 x y n) ∧ decode (shapeXY 0x9 x y n) = .ok (.op9xy0 x y n) ∧
    (∃ t, exec (.op5xy0 x y n) s = .next t ∧ t.pc = (if s.getV x = s.getV y then s.pc + 4 else s.pc + 2) ∧
      (x = y → t.pc = s.pc + 4) ∧ t.result = some .executed ∧ s.changesOnly [.pc, .result] t) ∧
    ∃ t, exec (.op9xy0 x y n) s = .next t ∧ t.pc = (if s.getV x ≠ s.getV y then s.pc + 4 else s.pc + 2) ∧
      (x = y → t.pc = s.pc + 2) ∧ t.result = some .executed ∧ s.changesOnly [.pc, .result] t

/-- `Bnnn` sets `pc` to the exact sum of `nnn` and `V[0]`, unmasked and unaligned, and records no carry (R117; D4). -/
def Obligations.OffsetJumpAddsV0Exactly : Prop :=
  ∀ (nnn : Addr) (s : State), decode (shapeA 0xB nnn) = .ok (.opBnnn nnn) ∧ ∃ t, exec (.opBnnn nnn) s = .next t ∧
    t.pc.toNat = nnn.toNat + (s.getV 0).toNat ∧ t.result = some .executed ∧ s.changesOnly [.pc, .result] t

/-! ### Registers -/

/-- `6xnn` loads the immediate and `7xnn` adds it mod 256 into the register `x`: no flag is written, so VF changes only as the
destination (R130, R131). -/
def Obligations.ImmediateLoadAndAddWriteTheRegister : Prop :=
  ∀ (x : Nibble) (nn : Byte) (s : State),
    decode (shapeXI 0x6 x nn) = .ok (.op6xnn x nn) ∧ decode (shapeXI 0x7 x nn) = .ok (.op7xnn x nn) ∧
    (∃ t, exec (.op6xnn x nn) s = .next t ∧ t.getV x = nn ∧ (x ≠ regVF → t.getV regVF = s.getV regVF) ∧ t.pc = s.pc + 2) ∧
    ∃ t, exec (.op7xnn x nn) s = .next t ∧ (t.getV x).toNat = ((s.getV x).toNat + nn.toNat) % 256 ∧
      (x ≠ regVF → t.getV regVF = s.getV regVF) ∧ t.pc = s.pc + 2

/-- `8xy0` to `8xy3` copy, OR, AND and XOR into the register `x`, and VF is not written but as the destination (R132 to R135). -/
def Obligations.CopyAndLogicWriteTheRegister : Prop :=
  ∀ (x y : Nibble) (s : State),
    decode (shapeXY 0x8 x y 0) = .ok (.op8xy0 x y) ∧ decode (shapeXY 0x8 x y 1) = .ok (.op8xy1 x y) ∧
    decode (shapeXY 0x8 x y 2) = .ok (.op8xy2 x y) ∧ decode (shapeXY 0x8 x y 3) = .ok (.op8xy3 x y) ∧
    ∀ c ∈ [(Instr.op8xy0 x y, s.getV y), (.op8xy1 x y, s.getV x ||| s.getV y), (.op8xy2 x y, s.getV x &&& s.getV y),
        (.op8xy3 x y, s.getV x ^^^ s.getV y)],
      ∃ t, exec c.1 s = .next t ∧ t.getV x = c.2 ∧ (x ≠ regVF → t.getV regVF = s.getV regVF) ∧ t.pc = s.pc + 2

/-- `8xy4`: VF is the carry of the old operands, and `V[x]` the sum mod 256 unless `x` is VF itself, which ends as the flag
(R136; the flag written last is D8). -/
def Obligations.AddSetsTheSumAndTheCarry : Prop :=
  ∀ (x y : Nibble) (s : State), decode (shapeXY 0x8 x y 4) = .ok (.op8xy4 x y) ∧ ∃ t, exec (.op8xy4 x y) s = .next t ∧
    t.getV regVF = (if (s.getV x).toNat + (s.getV y).toNat > 255 then 1 else 0) ∧
    (x ≠ regVF → (t.getV x).toNat = ((s.getV x).toNat + (s.getV y).toNat) % 256) ∧
    (∀ r, r ≠ x → r ≠ regVF → t.getV r = s.getV r) ∧ t.pc = s.pc + 2 ∧ t.result = some .executed ∧
    s.changesOnly [.V, .pc, .result] t

/-- `8xy5` and `8xy7`: VF is 1 when the subtraction of the old operands needs no borrow, equality included, and `V[x]` is the
difference mod 256 unless `x` is VF itself (R137, R139; the flag written last is D8). -/
def Obligations.SubtractionsSetTheDifferenceAndNoBorrow : Prop :=
  ∀ (x y : Nibble) (s : State),
    decode (shapeXY 0x8 x y 5) = .ok (.op8xy5 x y) ∧ decode (shapeXY 0x8 x y 7) = .ok (.op8xy7 x y) ∧
    ∀ c ∈ [(Instr.op8xy5 x y, (s.getV x).toNat, (s.getV y).toNat), (.op8xy7 x y, (s.getV y).toNat, (s.getV x).toNat)],
      ∃ t, exec c.1 s = .next t ∧ t.getV regVF = (if c.2.1 ≥ c.2.2 then 1 else 0) ∧
        (x ≠ regVF → (t.getV x).toNat = (c.2.1 + 256 - c.2.2) % 256) ∧
        (∀ r, r ≠ x → r ≠ regVF → t.getV r = s.getV r) ∧ t.pc = s.pc + 2 ∧ t.result = some .executed ∧
        s.changesOnly [.V, .pc, .result] t

/-- `8xy6` and `8xyE` shift `V[x]` in place by one, VF is the bit shifted out, and `V[y]` is neither read nor written: the result
is the same for every `y` (R138, R140; the flag written last is D8). -/
def Obligations.ShiftsWorkInPlaceAndKeepTheLostBit : Prop :=
  ∀ (x y : Nibble) (s : State),
    decode (shapeXY 0x8 x y 6) = .ok (.op8xy6 x y) ∧ decode (shapeXY 0x8 x y 0xE) = .ok (.op8xyE x y) ∧
    (∃ t, exec (.op8xy6 x y) s = .next t ∧ (t.getV regVF).toNat = (s.getV x).toNat % 2 ∧
      (x ≠ regVF → (t.getV x).toNat = (s.getV x).toNat / 2) ∧ (∀ r, r ≠ x → r ≠ regVF → t.getV r = s.getV r) ∧
      t.pc = s.pc + 2 ∧ t.result = some .executed ∧ s.changesOnly [.V, .pc, .result] t) ∧
    (∃ t, exec (.op8xyE x y) s = .next t ∧ (t.getV regVF).toNat = (s.getV x).toNat / 128 ∧
      (x ≠ regVF → (t.getV x).toNat = (s.getV x).toNat * 2 % 256) ∧ (∀ r, r ≠ x → r ≠ regVF → t.getV r = s.getV r) ∧
      t.pc = s.pc + 2 ∧ t.result = some .executed ∧ s.changesOnly [.V, .pc, .result] t) ∧
    ∀ z, exec (.op8xy6 x z) s = exec (.op8xy6 x y) s ∧ exec (.op8xyE x z) s = exec (.op8xyE x y) s

/-- `Cxnn` writes the Cycle's random byte ANDed with `nn`, for every random byte: no bit outside `nn` is set, and `nn = 0` gives
0 (R141). The byte is the field `rand8`, which nothing constrains (log 2). -/
def Obligations.RandomByteIsMasked : Prop :=
  ∀ (x : Nibble) (nn r : Byte) (s : State), decode (shapeXI 0xC x nn) = .ok (.opCxnn x nn) ∧
    ∃ t, exec (.opCxnn x nn) (s.setRand8 r) = .next t ∧ t.getV x = r &&& nn ∧ t.getV x &&& ~~~nn = 0 ∧
      (nn = 0 → t.getV x = 0) ∧ (∀ q, q ≠ x → t.getV q = s.getV q) ∧ t.pc = s.pc + 2 ∧ t.result = some .executed ∧
      (s.setRand8 r).changesOnly [.V, .pc, .result] t

/-- An instruction other than `Cxnn` ignores the random byte: two runs that differ only in it answer alike (R141). -/
def Obligations.OnlyTheRandomInstructionReadsTheRandomByte : Prop :=
  ∀ (i : Instr) (s : State) (r : Byte), (∀ x nn, i ≠ .opCxnn x nn) →
    (∀ t, exec i s = .next t → exec i (s.setRand8 r) = .next (t.setRand8 r)) ∧
    (∀ f, exec i s = .fault f → exec i (s.setRand8 r) = .fault f)

/-- VF after an instruction that writes it as a flag is 0 or 1, whatever its operands are, VF itself included (R22). -/
def Obligations.FlagWritersLeaveZeroOrOneInVF : Prop :=
  ∀ (i : Instr) (s t : State), i.writesFlag = true → exec i s = .next t → t.getV regVF = 0 ∨ t.getV regVF = 1

/-! ### Index register and memory -/

/-- `Annn` loads `I` with any address, and `Fx1E` adds `V[x]` to it mod 4096; neither writes VF (R150, R151). -/
def Obligations.IndexLoadAndAddWriteTheIndex : Prop :=
  (∀ (nnn : Addr) (s : State), decode (shapeA 0xA nnn) = .ok (.opAnnn nnn) ∧ ∃ t, exec (.opAnnn nnn) s = .next t ∧
    t.I.toNat = nnn.toNat ∧ t.getV regVF = s.getV regVF ∧ t.pc = s.pc + 2) ∧
  ∀ (x : Nibble) (s : State), decode (shapeXI 0xF x 0x1E) = .ok (.opFx1E x) ∧ ∃ t, exec (.opFx1E x) s = .next t ∧
    t.I.toNat = (s.I.toNat + (s.getV x).toNat) % 4096 ∧ t.getV regVF = s.getV regVF ∧ t.pc = s.pc + 2

/-- `Fx29` sets `I` to five times the whole byte `V[x]`, past the glyph table too (R152; D31). -/
def Obligations.GlyphAddressIsFiveTimesTheByte : Prop :=
  ∀ (x : Nibble) (s : State), decode (shapeXI 0xF x 0x29) = .ok (.opFx29 x) ∧ ∃ t, exec (.opFx29 x) s = .next t ∧
    t.I.toNat = (s.getV x).toNat * 5 ∧ t.pc = s.pc + 2 ∧ t.result = some .executed ∧
    s.changesOnly [.I, .pc, .result] t

/-- `Fx33` stores the hundreds, tens and ones of `V[x]` at `(I + 0)`, `(I + 1)` and `(I + 2)` mod 4096, and no other byte
(R153). -/
def Obligations.BcdStoresThreeDigits : Prop :=
  ∀ (x : Nibble) (s : State), decode (shapeXI 0xF x 0x33) = .ok (.opFx33 x) ∧ ∃ t, exec (.opFx33 x) s = .next t ∧
    (t.read (s.dataAddr 0)).toNat = (s.getV x).toNat / 100 ∧
    (t.read (s.dataAddr 1)).toNat = (s.getV x).toNat / 10 % 10 ∧
    (t.read (s.dataAddr 2)).toNat = (s.getV x).toNat % 10 ∧
    (∀ a : Addr, a ≠ s.dataAddr 0 → a ≠ s.dataAddr 1 → a ≠ s.dataAddr 2 → t.read a = s.read a) ∧
    (∀ k, (s.dataAddr k).toNat = (s.I.toNat + k) % 4096) ∧
    t.pc = s.pc + 2 ∧ t.result = some .executed ∧ s.changesOnly [.mem, .pc, .result] t

/-- `Fx55` stores `V[0]..V[x]` at `(I + i) mod 4096`, each address wrapping by itself, and leaves `I` and the registers (R154). -/
def Obligations.StoreRegistersCopiesV0ToVx : Prop :=
  ∀ (x : Nibble) (s : State), decode (shapeXI 0xF x 0x55) = .ok (.opFx55 x) ∧ ∃ t, exec (.opFx55 x) s = .next t ∧
    (∀ r : Nibble, r.toNat ≤ x.toNat → t.read (s.dataAddr r.toNat) = s.getV r) ∧
    (∀ a : Addr, (∀ r : Nibble, r.toNat ≤ x.toNat → a ≠ s.dataAddr r.toNat) → t.read a = s.read a) ∧
    (∀ k, (s.dataAddr k).toNat = (s.I.toNat + k) % 4096) ∧
    t.I = s.I ∧ (∀ r, t.getV r = s.getV r) ∧ t.pc = s.pc + 2

/-- `Fx65` loads `V[0]..V[x]` from `(I + i) mod 4096`, each address wrapping by itself, and leaves `I`, memory and the registers
above `V[x]` (R155). -/
def Obligations.LoadRegistersCopiesV0ToVx : Prop :=
  ∀ (x : Nibble) (s : State), decode (shapeXI 0xF x 0x65) = .ok (.opFx65 x) ∧ ∃ t, exec (.opFx65 x) s = .next t ∧
    (∀ r : Nibble, r.toNat ≤ x.toNat → t.getV r = s.read (s.dataAddr r.toNat)) ∧
    (∀ r : Nibble, x.toNat < r.toNat → t.getV r = s.getV r) ∧
    (∀ k, (s.dataAddr k).toNat = (s.I.toNat + k) % 4096) ∧
    t.I = s.I ∧ (∀ a, t.read a = s.read a) ∧ t.pc = s.pc + 2

/-- Self-modifying code works at once: two registers stored over the next instruction are the word the next fetch reads (R62;
the big-endian word of R55). -/
def Obligations.StoredCodeIsFetchedNext : Prop :=
  ∀ s : State, s.pc.toNat + 2 < 0xFFF → s.I.toNat = s.pc.toNat + 2 →
    ∃ t, exec (.opFx55 1) s = .next t ∧ t.fetch = .ok (s.getV 0 ++ s.getV 1)

/-! ### Input and timers -/

/-- `Ex9E` and `ExA1` skip when the key whose code is `V[x]` is pressed, and when it is not, and change nothing else; on a value
above 0x0F they abort with it (R181, R182, R216; the abort is D11). -/
def Obligations.KeySkipsTestTheKeyInTheRegister : Prop :=
  ∀ (x : Nibble) (s : State),
    decode (shapeXI 0xE x 0x9E) = .ok (.opEx9E x) ∧ decode (shapeXI 0xE x 0xA1) = .ok (.opExA1 x) ∧
    (∀ k : Nibble, s.getV x = k.setWidth 8 →
      (∃ t, exec (.opEx9E x) s = .next t ∧ t.pc = (if s.getKey k then s.pc + 4 else s.pc + 2) ∧
        t.result = some .executed ∧ s.changesOnly [.pc, .result] t) ∧
      ∃ t, exec (.opExA1 x) s = .next t ∧ t.pc = (if s.getKey k then s.pc + 2 else s.pc + 4) ∧
        t.result = some .executed ∧ s.changesOnly [.pc, .result] t) ∧
    (0x0F < (s.getV x).toNat → exec (.opEx9E x) s = .fault (.keyIndex (s.getV x)) ∧
      exec (.opExA1 x) s = .fault (.keyIndex (s.getV x)))

/-- `Fx0A` enters the wait for its register: `pc` keeps addressing it, and nothing else changes, not even with a key held
(R183). -/
def Obligations.WaitForKeyOnlyEntersTheWait : Prop :=
  ∀ (x : Nibble) (s : State), decode (shapeXI 0xF x 0x0A) = .ok (.opFx0A x) ∧ ∃ t, exec (.opFx0A x) s = .next t ∧
    t.exec = .awaitingKey x ∧ t.pc = s.pc ∧ t.result = some .executed ∧ s.changesOnly [.exec, .result] t

/-- `Fx07` reads the delay timer, `Fx15` and `Fx18` set the delay and the sound timer to any byte, and each changes nothing else
(R201, R202, R203). After `Fx18` the tone is on exactly when the byte is not 0 (R204). -/
def Obligations.TimerInstructionsReadAndSetTheTimers : Prop :=
  ∀ (x : Nibble) (s : State),
    decode (shapeXI 0xF x 0x07) = .ok (.opFx07 x) ∧ decode (shapeXI 0xF x 0x15) = .ok (.opFx15 x) ∧
    decode (shapeXI 0xF x 0x18) = .ok (.opFx18 x) ∧
    (∃ t, exec (.opFx07 x) s = .next t ∧ t.getV x = s.DT ∧ (∀ r, r ≠ x → t.getV r = s.getV r) ∧ t.pc = s.pc + 2 ∧
      t.result = some .executed ∧ s.changesOnly [.V, .pc, .result] t) ∧
    (∃ t, exec (.opFx15 x) s = .next t ∧ t.DT = s.getV x ∧ t.pc = s.pc + 2 ∧ t.result = some .executed ∧
      s.changesOnly [.DT, .pc, .result] t) ∧
    ∃ t, exec (.opFx18 x) s = .next t ∧ t.ST = s.getV x ∧ (t.tone = true ↔ s.getV x ≠ 0) ∧ t.pc = s.pc + 2 ∧
      t.result = some .executed ∧ s.changesOnly [.ST, .pc, .result] t

/-! ### The whole machine -/

/-- The access matrix of R37 as a frame: no instruction changes a piece of state that its row does not name (R8, R37; the frame
rule is the spec's reading D22). -/
def Obligations.InstructionsChangeOnlyWhatTheMatrixNames : Prop :=
  ∀ (i : Instr) (s t : State), exec i s = .next t → s.changesOnly i.writes t

/-- No instruction changes a general register but its destination, and VF where it writes it as the flag (R8, R22, R37). -/
def Obligations.InstructionsChangeOnlyTheirRegisters : Prop :=
  ∀ (i : Instr) (s t : State), exec i s = .next t → ∀ r : Nibble, i.writesReg r = false → t.getV r = s.getV r

/-- No instruction changes a byte of memory but those it stores to: three for `Fx33`, `x + 1` for `Fx55`, at `(I + k) mod 4096`
of the state it starts in, and none for any other (R8, R37, R53). -/
def Obligations.InstructionsChangeOnlyTheBytesTheyStoreTo : Prop :=
  ∀ (i : Instr) (s t : State), exec i s = .next t → ∀ a : Addr, a ∉ i.storesTo s → t.read a = s.read a

/-- No event changes a piece of state that its rule does not name: in particular no event at all changes the glyph table that a
Load installs, a Cycle never a timer but by `Fx15` and `Fx18`, and a Tick nothing but the timers (R7, R8, R33, R37). -/
def Obligations.EventsChangeOnlyWhatTheirRulesName : Prop :=
  ∀ (e : Event) (s t : State), event e s = .next t → s.changesOnly (e.writes s) t

/-- A step ends in a fault exactly when its event is a Cycle of a loaded machine in the resting state "faulted": a fetch at 0xFFF
or above, or a key skip with a value that is no key code. There is no other fault (R210, R215, R216, R220; D5, D11). -/
def Obligations.StepFaultsExactlyOnTheTwoAbortingConditions : Prop :=
  ∀ s : State, (∃ f, step s = .fault f) ↔ s.cycleNext ∧ s.faulted

/-- The result of a Cycle that answers a next state, by the table of R98: `Idle`, `Retired`, or, from a running state, one of the
three reported conditions exactly where R211, R212 and R213 raise it, and `Executed` otherwise (R98, R220). -/
def Obligations.CycleReturnsTheResultOfTheTable : Prop :=
  ∀ (s t : State) (r : Byte), event (.cycle r) s = .next t →
    (∀ x, s.exec = .awaitingKey x → t.result = some .idle) ∧
    (s.exec = .resuming → t.result = some .retired) ∧
    ∀ w, s.exec = .running → s.fetch = .ok w →
      (decode w = .error (.unknownOpcode w) → t.result = some (.reported (.unknownOpcode w))) ∧
      (∀ nnn, decode w = .ok (.op2nnn nnn) → 16 ≤ s.stack.length → t.result = some (.reported .stackOverflow)) ∧
      (decode w = .ok .op00EE → s.stack = [] → t.result = some (.reported .stackUnderflow)) ∧
      (∀ i, decode w = .ok i → (∀ nnn, i = .op2nnn nnn → s.stack.length < 16) → (i = .op00EE → s.stack ≠ []) →
        t.result = some .executed)

/-- A machine whose `pc` is 0xFFF or above is wedged until a Load: after any Cycles, Ticks and Keys it still has that `pc`, its
next Cycle aborts with it, Ticks and Keys are still accepted, and a Load recovers it (R54, R215, R240; D5, D6). That the Load
leaves `pc` at 0x0200 is the spec's own decision D3 (log 8). -/
def Obligations.FetchAbortWedgesUntilALoad : Prop :=
  ∀ (s : State) (es : List Event), s.loaded = true → s.exec = .running → 0xFFF ≤ s.pc.toNat →
    (∀ e ∈ es, ∀ bytes, e ≠ .load bytes) →
    (s.deliverAll es).pc = s.pc ∧ (∀ r, event (.cycle r) (s.deliverAll es) = .fault (.outOfBounds s.pc)) ∧
    (∃ t, event .tick (s.deliverAll es) = .next t) ∧ (∀ c p, ∃ t, event (.key c p) (s.deliverAll es) = .next t) ∧
    ∀ bytes : List Byte, bytes.length ≤ 0xE00 → ∃ t, event (.load bytes) (s.deliverAll es) = .next t ∧ t.pc = 0x0200

/-- An aborted Cycle changes nothing, so that it aborts again: what the host sees of it differs from the state before in the
result alone (R12, R216; D6, D11). -/
def Obligations.AbortedCycleChangesNothingAndRecurs : Prop :=
  ∀ (s : State) (r : Byte) (f : Fault), event (.cycle r) s = .fault f →
    (deliver (.cycle r) s).result = some (.aborted f) ∧ s.changesOnly [.result] (deliver (.cycle r) s) ∧
    ∀ r', event (.cycle r') (deliver (.cycle r) s) = .fault f

/-- The idle loop is a resting state: each Cycle of it is `Executed`, changes nothing, and leaves it in the idle loop (R111,
R247 (a); that it counts as a resting state is the spec's own convention D19). -/
def Obligations.IdleLoopRests : Prop :=
  ∀ (s : State) (r : Byte), s.idleLoop → ∃ t, event (.cycle r) s = .next t ∧ t.result = some .executed ∧
    s.changesOnly [.rand8, .result] t ∧ t.idleLoop

/-- The reset state meets the invariant of the state (R34; its `pc` is D3, log 8). -/
def Obligations.ResetStateMeetsTheInvariant : Prop := State.reset.Inv

/-- Every step keeps the invariant of the state, from every state that meets it: memory stays canonical, `I` stays in 12 bits
(R23), the stack stays at most 16 deep (R26), and `pc` never exceeds 0x10FE (R25; that no write of `pc` is masked is D4, that no
instruction executes at 0xFFF or above is D5). -/
def Obligations.EveryStepKeepsTheInvariant : Prop := ∀ s t : State, s.Inv → step s = .next t → t.Inv
end

