-- ==== Sys2Proof/Laws/Encoding.lean ====
section
/-! SUPPORT. The fields of a word in each of the shapes a word is built in (30_encoding.md R71, R72), and that a word is its
own fields. -/

namespace Sys2Proof

/-- The bits of a word of format A. -/
theorem getLsbD_shapeA (g : Nibble) (t : Addr) (i : Nat) :
    (shapeA g t).getLsbD i = if i < 12 then t.getLsbD i else g.getLsbD (i - 12) :=
  BitVec.getLsbD_append (x := g) (y := t) (i := i)

/-- The bits of a word of format XI. -/
theorem getLsbD_shapeXI (g x : Nibble) (b : Byte) (i : Nat) :
    (shapeXI g x b).getLsbD i =
      if i < 12 then if i < 8 then b.getLsbD i else x.getLsbD (i - 8) else g.getLsbD (i - 12) :=
  (BitVec.getLsbD_append (x := g) (y := x ++ b) (i := i)).trans (by rw [BitVec.getLsbD_append])

/-- The bits of a byte of two nibbles. -/
theorem getLsbD_twoNibbles (y n : Nibble) (i : Nat) :
    BitVec.getLsbD (w := 8) (y ++ n) i = if i < 4 then n.getLsbD i else y.getLsbD (i - 4) :=
  BitVec.getLsbD_append (x := y) (y := n) (i := i)

/-- The bits of a word of format XY. -/
theorem getLsbD_shapeXY (g x y n : Nibble) (i : Nat) :
    (shapeXY g x y n).getLsbD i =
      if i < 12 then if i < 8 then if i < 4 then n.getLsbD i else y.getLsbD (i - 4) else x.getLsbD (i - 8)
      else g.getLsbD (i - 12) :=
  (getLsbD_shapeXI g x (y ++ n) i).trans (by rw [getLsbD_twoNibbles])

@[simp] theorem fieldGroup_shapeA (g : Nibble) (t : Addr) : fieldGroup (shapeA g t) = g :=
  BitVec.extractLsb'_append_eq_left

@[simp] theorem fieldNNN_shapeA (g : Nibble) (t : Addr) : fieldNNN (shapeA g t) = t :=
  BitVec.extractLsb'_append_eq_right

@[simp] theorem fieldGroup_shapeXI (g x : Nibble) (b : Byte) : fieldGroup (shapeXI g x b) = g :=
  fieldGroup_shapeA g (x ++ b)

@[simp] theorem fieldX_shapeXI (g x : Nibble) (b : Byte) : fieldX (shapeXI g x b) = x := by
  ext i hi
  have h1 : 8 + i < 12 := by omega
  simp [fieldX, BitVec.getElem_extractLsb', getLsbD_shapeXI, h1, BitVec.getLsbD_eq_getElem hi]

@[simp] theorem fieldNN_shapeXI (g x : Nibble) (b : Byte) : fieldNN (shapeXI g x b) = b := by
  ext i hi
  have h1 : i < 12 := by omega
  simp [fieldNN, BitVec.getElem_extractLsb', getLsbD_shapeXI, h1, hi]

@[simp] theorem fieldGroup_shapeXY (g x y n : Nibble) : fieldGroup (shapeXY g x y n) = g :=
  fieldGroup_shapeXI g x (y ++ n)

@[simp] theorem fieldX_shapeXY (g x y n : Nibble) : fieldX (shapeXY g x y n) = x := fieldX_shapeXI g x (y ++ n)

@[simp] theorem fieldY_shapeXY (g x y n : Nibble) : fieldY (shapeXY g x y n) = y := by
  ext i hi
  have h1 : 4 + i < 12 := by omega
  have h2 : 4 + i < 8 := by omega
  simp [fieldY, BitVec.getElem_extractLsb', getLsbD_shapeXY, h1, h2, BitVec.getLsbD_eq_getElem hi]

@[simp] theorem fieldN_shapeXY (g x y n : Nibble) : fieldN (shapeXY g x y n) = n := by
  ext i hi
  have h1 : i < 12 := by omega
  have h2 : i < 8 := by omega
  simp [fieldN, BitVec.getElem_extractLsb', getLsbD_shapeXY, h1, h2, hi]

/-! ### A word is its fields -/

/-- A word is its group and its `nnn`. -/
theorem shapeA_fields (w : Word) : shapeA (fieldGroup w) (fieldNNN w) = w := by
  refine BitVec.eq_of_getLsbD_eq fun i hi => ?_
  rw [getLsbD_shapeA]
  split
  · next h => simp [fieldNNN, h]
  · next h =>
    have h1 : i - 12 < 4 := by omega
    have h2 : 12 + (i - 12) = i := by omega
    simp [fieldGroup, h1, h2]

/-- A word is its group, its `x` and its `nn`. -/
theorem shapeXI_fields (w : Word) : shapeXI (fieldGroup w) (fieldX w) (fieldNN w) = w := by
  refine BitVec.eq_of_getLsbD_eq fun i hi => ?_
  rw [getLsbD_shapeXI]
  split
  · split
    · next h => simp [fieldNN, h]
    · have h1 : i - 8 < 4 := by omega
      have h2 : 8 + (i - 8) = i := by omega
      simp [fieldX, h1, h2]
  · have h1 : i - 12 < 4 := by omega
    have h2 : 12 + (i - 12) = i := by omega
    simp [fieldGroup, h1, h2]

/-- A word is its four nibbles. -/
theorem shapeXY_fields (w : Word) : shapeXY (fieldGroup w) (fieldX w) (fieldY w) (fieldN w) = w := by
  refine BitVec.eq_of_getLsbD_eq fun i hi => ?_
  rw [getLsbD_shapeXY]
  split
  · split
    · split
      · next h => simp [fieldN, h]
      · have h1 : i - 4 < 4 := by omega
        have h2 : 4 + (i - 4) = i := by omega
        simp [fieldY, h1, h2]
    · have h1 : i - 8 < 4 := by omega
      have h2 : 8 + (i - 8) = i := by omega
      simp [fieldX, h1, h2]
  · have h1 : i - 12 < 4 := by omega
    have h2 : 12 + (i - 12) = i := by omega
    simp [fieldGroup, h1, h2]

end Sys2Proof
end

