-- ==== Sys2Proof/Laws/Memory.lean ====
section
/-! SUPPORT. The laws of the memory bank: a read after a write, and that every operation keeps the canonical form. -/

namespace Sys2Proof.Machine

variable (g : Glyph)

theorem Memory.read_put_same (a : Nat) (v : Byte) (m : List Host.Cell) (h : ∀ c ∈ m, c.1 ≠ a) :
    Memory.read g (Memory.put g a v m) a = v := by
  have unlisted : ∀ m : List Host.Cell, (∀ c ∈ m, c.1 ≠ a) → Memory.read g m a = Memory.unlisted g a := by
    intro m hm
    induction m with
    | nil => rfl
    | cons c m ih => simp_all [Memory.read]
  unfold Memory.put
  split
  · next hv => rw [unlisted m h, hv]
  · simp [Memory.read]

theorem Memory.read_put_ne (a b : Nat) (v : Byte) (m : List Host.Cell) (h : b ≠ a) :
    Memory.read g (Memory.put g a v m) b = Memory.read g m b := by
  unfold Memory.put
  split
  · rfl
  · simp [Memory.read, h.symm]

theorem Memory.read_erase_ne (a b : Nat) (m : List Host.Cell) (h : b ≠ a) :
    Memory.read g (Memory.erase a m) b = Memory.read g m b := by
  induction m with
  | nil => rfl
  | cons c m ih =>
    unfold Memory.erase at *
    by_cases hc : c.1 = a
    · simp [hc, Memory.read, ih, h.symm]
    · simp [hc, Memory.read, ih]

theorem Memory.erase_ne (a : Nat) (m : List Host.Cell) : ∀ c ∈ Memory.erase a m, c.1 ≠ a := by
  intro c hc
  simpa [Memory.erase] using (List.mem_filter.mp hc).2

theorem Memory.read_insert_same (a : Nat) (v : Byte) (m : List Host.Cell) (h : ∀ c ∈ m, c.1 ≠ a) :
    Memory.read g (Memory.insert g a v m) a = v := by
  induction m with
  | nil => exact Memory.read_put_same g a v [] (by simp)
  | cons c m ih =>
    unfold Memory.insert
    split
    · exact Memory.read_put_same g a v _ h
    · have hc : c.1 ≠ a := h c (by simp)
      simpa [Memory.read, hc] using ih fun d hd => h d (by simp [hd])

theorem Memory.read_insert_ne (a b : Nat) (v : Byte) (m : List Host.Cell) (h : b ≠ a) :
    Memory.read g (Memory.insert g a v m) b = Memory.read g m b := by
  induction m with
  | nil => exact Memory.read_put_ne g a b v [] h
  | cons c m ih =>
    unfold Memory.insert
    split
    · exact Memory.read_put_ne g a b v _ h
    · simp [Memory.read, ih]

/-- The byte at an address after a store: the stored byte there, the old one anywhere else. -/
theorem Memory.read_write (m : List Host.Cell) (a b : Nat) (v : Byte) :
    Memory.read g (Memory.write g m a v) b = if b = a then v else Memory.read g m b := by
  unfold Memory.write
  split
  · next h => subst h; exact Memory.read_insert_same g b v _ (Memory.erase_ne b m)
  · next h => rw [Memory.read_insert_ne g a b v _ h, Memory.read_erase_ne g a b m h]

/-! ### The canonical form -/

theorem Memory.wf_nil : Memory.wf g [] := by simp [Memory.wf]

theorem Memory.wf_put {a : Nat} {v : Byte} {m : List Host.Cell} (hm : Memory.wf g m) (ha : a < 4096)
    (h : ∀ c ∈ m, a < c.1) : Memory.wf g (Memory.put g a v m) := by
  unfold Memory.put
  split
  · exact hm
  · next hv =>
    refine ⟨List.pairwise_cons.mpr ⟨h, hm.1⟩, fun c hc => ?_⟩
    rcases List.mem_cons.mp hc with rfl | hc
    · exact ⟨ha, hv⟩
    · exact hm.2 c hc

theorem Memory.wf_erase {m : List Host.Cell} (hm : Memory.wf g m) (a : Nat) : Memory.wf g (Memory.erase a m) :=
  ⟨hm.1.filter _, fun c hc => hm.2 c (List.mem_filter.mp hc).1⟩

theorem Memory.mem_put {a : Nat} {v : Byte} {m : List Host.Cell} {c : Host.Cell} (h : c ∈ Memory.put g a v m) :
    c = (a, v) ∨ c ∈ m := by
  unfold Memory.put at h
  split at h
  · exact .inr h
  · exact List.mem_cons.mp h

theorem Memory.mem_insert {a : Nat} {v : Byte} {m : List Host.Cell} {c : Host.Cell} (h : c ∈ Memory.insert g a v m) :
    c = (a, v) ∨ c ∈ m := by
  induction m with
  | nil => exact Memory.mem_put g h
  | cons d m ih =>
    unfold Memory.insert at h
    split at h
    · exact Memory.mem_put g h
    · rcases List.mem_cons.mp h with rfl | h
      · simp
      · rcases ih h with rfl | h
        · simp
        · simp [h]

theorem Memory.wf_insert {a : Nat} {v : Byte} {m : List Host.Cell} (hm : Memory.wf g m) (ha : a < 4096)
    (h : ∀ c ∈ m, c.1 ≠ a) : Memory.wf g (Memory.insert g a v m) := by
  induction m with
  | nil => exact Memory.wf_put g hm ha (by simp)
  | cons c m ih =>
    have hp := List.pairwise_cons.mp hm.1
    unfold Memory.insert
    split
    · next hlt =>
      refine Memory.wf_put g hm ha fun d hd => ?_
      rcases List.mem_cons.mp hd with rfl | hd
      · exact hlt
      · exact hlt.trans (hp.1 d hd)
    · next hge =>
      have hc : c.1 ≠ a := h c (by simp)
      have hw := ih ⟨hp.2, fun d hd => hm.2 d (by simp [hd])⟩ fun d hd => h d (by simp [hd])
      refine ⟨List.pairwise_cons.mpr ⟨fun d hd => ?_, hw.1⟩, fun d hd => ?_⟩
      · rcases Memory.mem_insert g hd with rfl | hd
        · exact lt_of_le_of_ne (not_lt.mp hge) hc
        · exact hp.1 d hd
      · rcases List.mem_cons.mp hd with rfl | hd
        · exact hm.2 d (by simp)
        · exact hw.2 d hd

/-- A store inside the space keeps the canonical form. -/
theorem Memory.wf_write {m : List Host.Cell} (hm : Memory.wf g m) {a : Nat} (ha : a < 4096) (v : Byte) :
    Memory.wf g (Memory.write g m a v) :=
  Memory.wf_insert g (Memory.wf_erase g hm a) ha (Memory.erase_ne a m)

/-- Every cell of an image lies inside it. -/
theorem Memory.mem_image {a : Nat} {bs : List Byte} {c : Host.Cell} (h : c ∈ Memory.image g a bs) :
    a ≤ c.1 ∧ c.1 < a + bs.length := by
  induction bs generalizing a with
  | nil => simp [Memory.image] at h
  | cons b bs ih =>
    rcases Memory.mem_put g h with rfl | h
    · simp
    · have := ih h
      simp only [List.length_cons]
      omega

/-- An image that ends inside the space is in the canonical form. -/
theorem Memory.wf_image (a : Nat) (bs : List Byte) (h : a + bs.length ≤ 4096) : Memory.wf g (Memory.image g a bs) := by
  induction bs generalizing a with
  | nil => exact Memory.wf_nil g
  | cons b bs ih =>
    simp only [List.length_cons] at h
    refine Memory.wf_put g (ih (a + 1) (by omega)) (by omega) fun c hc => ?_
    have := Memory.mem_image g hc
    omega

/-- The byte at an address of a memory that holds only an image. -/
theorem Memory.read_image (a b : Nat) (bs : List Byte) :
    Memory.read g (Memory.image g a bs) b =
      if h : a ≤ b ∧ b < a + bs.length then bs[b - a] else Memory.unlisted g b := by
  induction bs generalizing a with
  | nil => simp [Memory.image, Memory.read]
  | cons v bs ih =>
    unfold Memory.image
    by_cases hb : b = a
    · subst hb
      rw [Memory.read_put_same]
      · simp
      · intro c hc
        have := Memory.mem_image g hc
        omega
    · rw [Memory.read_put_ne g a b v _ hb, ih]
      simp only [List.length_cons]
      by_cases h : a ≤ b ∧ b < a + (bs.length + 1)
      · have h1 : a + 1 ≤ b ∧ b < a + 1 + bs.length := by omega
        have h2 : b - a = b - (a + 1) + 1 := by omega
        simp [h, h1, h2]
      · have h1 : ¬(a + 1 ≤ b ∧ b < a + 1 + bs.length) := by omega
        rw [dif_neg h, dif_neg h1]

end Sys2Proof.Machine
end

