-- ==== Sys2Proof/Laws/State.lean ====
section
/-! SUPPORT. One lemma per field per update of the state, and one per update for each of the machine's reads, so that no proof
unfolds a record update. -/

namespace Sys2Proof.Machine

variable (s : State)

/-! ### setMem -/

@[simp] theorem State.setMem_mem (m : List Host.Cell) : (s.setMem m).mem = m := rfl
@[simp] theorem State.setMem_V (m : List Host.Cell) : (s.setMem m).V = s.V := rfl
@[simp] theorem State.setMem_I (m : List Host.Cell) : (s.setMem m).I = s.I := rfl
@[simp] theorem State.setMem_pc (m : List Host.Cell) : (s.setMem m).pc = s.pc := rfl
@[simp] theorem State.setMem_stack (m : List Host.Cell) : (s.setMem m).stack = s.stack := rfl
@[simp] theorem State.setMem_fb (m : List Host.Cell) : (s.setMem m).fb = s.fb := rfl
@[simp] theorem State.setMem_keys (m : List Host.Cell) : (s.setMem m).keys = s.keys := rfl
@[simp] theorem State.setMem_exec (m : List Host.Cell) : (s.setMem m).exec = s.exec := rfl
@[simp] theorem State.setMem_DT (m : List Host.Cell) : (s.setMem m).DT = s.DT := rfl
@[simp] theorem State.setMem_ST (m : List Host.Cell) : (s.setMem m).ST = s.ST := rfl
@[simp] theorem State.setMem_loaded (m : List Host.Cell) : (s.setMem m).loaded = s.loaded := rfl
@[simp] theorem State.setMem_glyph (m : List Host.Cell) : (s.setMem m).glyph = s.glyph := rfl
@[simp] theorem State.setMem_inbox (m : List Host.Cell) : (s.setMem m).inbox = s.inbox := rfl
@[simp] theorem State.setMem_rand8 (m : List Host.Cell) : (s.setMem m).rand8 = s.rand8 := rfl
@[simp] theorem State.setMem_draws (m : List Host.Cell) : (s.setMem m).draws = s.draws := rfl
@[simp] theorem State.setMem_result (m : List Host.Cell) : (s.setMem m).result = s.result := rfl
@[simp] theorem State.setMem_getV (m : List Host.Cell) (j : Nibble) : (s.setMem m).getV j = s.getV j := rfl
@[simp] theorem State.setMem_getKey (m : List Host.Cell) (j : Nibble) : (s.setMem m).getKey j = s.getKey j := rfl
@[simp] theorem State.setMem_cell (m : List Host.Cell) (j : Nat) : (s.setMem m).cell j = s.cell j := rfl
@[simp] theorem State.setMem_dataAddr (m : List Host.Cell) (j : Nat) : (s.setMem m).dataAddr j = s.dataAddr j := rfl

/-! ### setRegs -/

@[simp] theorem State.setRegs_mem (v : Vector Byte 16) : (s.setRegs v).mem = s.mem := rfl
@[simp] theorem State.setRegs_V (v : Vector Byte 16) : (s.setRegs v).V = v := rfl
@[simp] theorem State.setRegs_I (v : Vector Byte 16) : (s.setRegs v).I = s.I := rfl
@[simp] theorem State.setRegs_pc (v : Vector Byte 16) : (s.setRegs v).pc = s.pc := rfl
@[simp] theorem State.setRegs_stack (v : Vector Byte 16) : (s.setRegs v).stack = s.stack := rfl
@[simp] theorem State.setRegs_fb (v : Vector Byte 16) : (s.setRegs v).fb = s.fb := rfl
@[simp] theorem State.setRegs_keys (v : Vector Byte 16) : (s.setRegs v).keys = s.keys := rfl
@[simp] theorem State.setRegs_exec (v : Vector Byte 16) : (s.setRegs v).exec = s.exec := rfl
@[simp] theorem State.setRegs_DT (v : Vector Byte 16) : (s.setRegs v).DT = s.DT := rfl
@[simp] theorem State.setRegs_ST (v : Vector Byte 16) : (s.setRegs v).ST = s.ST := rfl
@[simp] theorem State.setRegs_loaded (v : Vector Byte 16) : (s.setRegs v).loaded = s.loaded := rfl
@[simp] theorem State.setRegs_glyph (v : Vector Byte 16) : (s.setRegs v).glyph = s.glyph := rfl
@[simp] theorem State.setRegs_inbox (v : Vector Byte 16) : (s.setRegs v).inbox = s.inbox := rfl
@[simp] theorem State.setRegs_rand8 (v : Vector Byte 16) : (s.setRegs v).rand8 = s.rand8 := rfl
@[simp] theorem State.setRegs_draws (v : Vector Byte 16) : (s.setRegs v).draws = s.draws := rfl
@[simp] theorem State.setRegs_result (v : Vector Byte 16) : (s.setRegs v).result = s.result := rfl
@[simp] theorem State.setRegs_getKey (v : Vector Byte 16) (j : Nibble) : (s.setRegs v).getKey j = s.getKey j := rfl
@[simp] theorem State.setRegs_read (v : Vector Byte 16) (j : Addr) : (s.setRegs v).read j = s.read j := rfl
@[simp] theorem State.setRegs_cell (v : Vector Byte 16) (j : Nat) : (s.setRegs v).cell j = s.cell j := rfl
@[simp] theorem State.setRegs_dataAddr (v : Vector Byte 16) (j : Nat) : (s.setRegs v).dataAddr j = s.dataAddr j := rfl

/-! ### setI -/

@[simp] theorem State.setI_mem (i : Word) : (s.setI i).mem = s.mem := rfl
@[simp] theorem State.setI_V (i : Word) : (s.setI i).V = s.V := rfl
@[simp] theorem State.setI_I (i : Word) : (s.setI i).I = i := rfl
@[simp] theorem State.setI_pc (i : Word) : (s.setI i).pc = s.pc := rfl
@[simp] theorem State.setI_stack (i : Word) : (s.setI i).stack = s.stack := rfl
@[simp] theorem State.setI_fb (i : Word) : (s.setI i).fb = s.fb := rfl
@[simp] theorem State.setI_keys (i : Word) : (s.setI i).keys = s.keys := rfl
@[simp] theorem State.setI_exec (i : Word) : (s.setI i).exec = s.exec := rfl
@[simp] theorem State.setI_DT (i : Word) : (s.setI i).DT = s.DT := rfl
@[simp] theorem State.setI_ST (i : Word) : (s.setI i).ST = s.ST := rfl
@[simp] theorem State.setI_loaded (i : Word) : (s.setI i).loaded = s.loaded := rfl
@[simp] theorem State.setI_glyph (i : Word) : (s.setI i).glyph = s.glyph := rfl
@[simp] theorem State.setI_inbox (i : Word) : (s.setI i).inbox = s.inbox := rfl
@[simp] theorem State.setI_rand8 (i : Word) : (s.setI i).rand8 = s.rand8 := rfl
@[simp] theorem State.setI_draws (i : Word) : (s.setI i).draws = s.draws := rfl
@[simp] theorem State.setI_result (i : Word) : (s.setI i).result = s.result := rfl
@[simp] theorem State.setI_getV (i : Word) (j : Nibble) : (s.setI i).getV j = s.getV j := rfl
@[simp] theorem State.setI_getKey (i : Word) (j : Nibble) : (s.setI i).getKey j = s.getKey j := rfl
@[simp] theorem State.setI_read (i : Word) (j : Addr) : (s.setI i).read j = s.read j := rfl
@[simp] theorem State.setI_cell (i : Word) (j : Nat) : (s.setI i).cell j = s.cell j := rfl

/-! ### setPc -/

@[simp] theorem State.setPc_mem (a : Word) : (s.setPc a).mem = s.mem := rfl
@[simp] theorem State.setPc_V (a : Word) : (s.setPc a).V = s.V := rfl
@[simp] theorem State.setPc_I (a : Word) : (s.setPc a).I = s.I := rfl
@[simp] theorem State.setPc_pc (a : Word) : (s.setPc a).pc = a := rfl
@[simp] theorem State.setPc_stack (a : Word) : (s.setPc a).stack = s.stack := rfl
@[simp] theorem State.setPc_fb (a : Word) : (s.setPc a).fb = s.fb := rfl
@[simp] theorem State.setPc_keys (a : Word) : (s.setPc a).keys = s.keys := rfl
@[simp] theorem State.setPc_exec (a : Word) : (s.setPc a).exec = s.exec := rfl
@[simp] theorem State.setPc_DT (a : Word) : (s.setPc a).DT = s.DT := rfl
@[simp] theorem State.setPc_ST (a : Word) : (s.setPc a).ST = s.ST := rfl
@[simp] theorem State.setPc_loaded (a : Word) : (s.setPc a).loaded = s.loaded := rfl
@[simp] theorem State.setPc_glyph (a : Word) : (s.setPc a).glyph = s.glyph := rfl
@[simp] theorem State.setPc_inbox (a : Word) : (s.setPc a).inbox = s.inbox := rfl
@[simp] theorem State.setPc_rand8 (a : Word) : (s.setPc a).rand8 = s.rand8 := rfl
@[simp] theorem State.setPc_draws (a : Word) : (s.setPc a).draws = s.draws := rfl
@[simp] theorem State.setPc_result (a : Word) : (s.setPc a).result = s.result := rfl
@[simp] theorem State.setPc_getV (a : Word) (j : Nibble) : (s.setPc a).getV j = s.getV j := rfl
@[simp] theorem State.setPc_getKey (a : Word) (j : Nibble) : (s.setPc a).getKey j = s.getKey j := rfl
@[simp] theorem State.setPc_read (a : Word) (j : Addr) : (s.setPc a).read j = s.read j := rfl
@[simp] theorem State.setPc_cell (a : Word) (j : Nat) : (s.setPc a).cell j = s.cell j := rfl
@[simp] theorem State.setPc_dataAddr (a : Word) (j : Nat) : (s.setPc a).dataAddr j = s.dataAddr j := rfl

/-! ### setStack -/

@[simp] theorem State.setStack_mem (l : List Word) : (s.setStack l).mem = s.mem := rfl
@[simp] theorem State.setStack_V (l : List Word) : (s.setStack l).V = s.V := rfl
@[simp] theorem State.setStack_I (l : List Word) : (s.setStack l).I = s.I := rfl
@[simp] theorem State.setStack_pc (l : List Word) : (s.setStack l).pc = s.pc := rfl
@[simp] theorem State.setStack_stack (l : List Word) : (s.setStack l).stack = l := rfl
@[simp] theorem State.setStack_fb (l : List Word) : (s.setStack l).fb = s.fb := rfl
@[simp] theorem State.setStack_keys (l : List Word) : (s.setStack l).keys = s.keys := rfl
@[simp] theorem State.setStack_exec (l : List Word) : (s.setStack l).exec = s.exec := rfl
@[simp] theorem State.setStack_DT (l : List Word) : (s.setStack l).DT = s.DT := rfl
@[simp] theorem State.setStack_ST (l : List Word) : (s.setStack l).ST = s.ST := rfl
@[simp] theorem State.setStack_loaded (l : List Word) : (s.setStack l).loaded = s.loaded := rfl
@[simp] theorem State.setStack_glyph (l : List Word) : (s.setStack l).glyph = s.glyph := rfl
@[simp] theorem State.setStack_inbox (l : List Word) : (s.setStack l).inbox = s.inbox := rfl
@[simp] theorem State.setStack_rand8 (l : List Word) : (s.setStack l).rand8 = s.rand8 := rfl
@[simp] theorem State.setStack_draws (l : List Word) : (s.setStack l).draws = s.draws := rfl
@[simp] theorem State.setStack_result (l : List Word) : (s.setStack l).result = s.result := rfl
@[simp] theorem State.setStack_getV (l : List Word) (j : Nibble) : (s.setStack l).getV j = s.getV j := rfl
@[simp] theorem State.setStack_getKey (l : List Word) (j : Nibble) : (s.setStack l).getKey j = s.getKey j := rfl
@[simp] theorem State.setStack_read (l : List Word) (j : Addr) : (s.setStack l).read j = s.read j := rfl
@[simp] theorem State.setStack_cell (l : List Word) (j : Nat) : (s.setStack l).cell j = s.cell j := rfl
@[simp] theorem State.setStack_dataAddr (l : List Word) (j : Nat) : (s.setStack l).dataAddr j = s.dataAddr j := rfl

/-! ### setFb -/

@[simp] theorem State.setFb_mem (p : Pixels) : (s.setFb p).mem = s.mem := rfl
@[simp] theorem State.setFb_V (p : Pixels) : (s.setFb p).V = s.V := rfl
@[simp] theorem State.setFb_I (p : Pixels) : (s.setFb p).I = s.I := rfl
@[simp] theorem State.setFb_pc (p : Pixels) : (s.setFb p).pc = s.pc := rfl
@[simp] theorem State.setFb_stack (p : Pixels) : (s.setFb p).stack = s.stack := rfl
@[simp] theorem State.setFb_fb (p : Pixels) : (s.setFb p).fb = p := rfl
@[simp] theorem State.setFb_keys (p : Pixels) : (s.setFb p).keys = s.keys := rfl
@[simp] theorem State.setFb_exec (p : Pixels) : (s.setFb p).exec = s.exec := rfl
@[simp] theorem State.setFb_DT (p : Pixels) : (s.setFb p).DT = s.DT := rfl
@[simp] theorem State.setFb_ST (p : Pixels) : (s.setFb p).ST = s.ST := rfl
@[simp] theorem State.setFb_loaded (p : Pixels) : (s.setFb p).loaded = s.loaded := rfl
@[simp] theorem State.setFb_glyph (p : Pixels) : (s.setFb p).glyph = s.glyph := rfl
@[simp] theorem State.setFb_inbox (p : Pixels) : (s.setFb p).inbox = s.inbox := rfl
@[simp] theorem State.setFb_rand8 (p : Pixels) : (s.setFb p).rand8 = s.rand8 := rfl
@[simp] theorem State.setFb_draws (p : Pixels) : (s.setFb p).draws = s.draws := rfl
@[simp] theorem State.setFb_result (p : Pixels) : (s.setFb p).result = s.result := rfl
@[simp] theorem State.setFb_getV (p : Pixels) (j : Nibble) : (s.setFb p).getV j = s.getV j := rfl
@[simp] theorem State.setFb_getKey (p : Pixels) (j : Nibble) : (s.setFb p).getKey j = s.getKey j := rfl
@[simp] theorem State.setFb_read (p : Pixels) (j : Addr) : (s.setFb p).read j = s.read j := rfl
@[simp] theorem State.setFb_dataAddr (p : Pixels) (j : Nat) : (s.setFb p).dataAddr j = s.dataAddr j := rfl

/-! ### setKeys -/

@[simp] theorem State.setKeys_mem (k : Vector Bool 16) : (s.setKeys k).mem = s.mem := rfl
@[simp] theorem State.setKeys_V (k : Vector Bool 16) : (s.setKeys k).V = s.V := rfl
@[simp] theorem State.setKeys_I (k : Vector Bool 16) : (s.setKeys k).I = s.I := rfl
@[simp] theorem State.setKeys_pc (k : Vector Bool 16) : (s.setKeys k).pc = s.pc := rfl
@[simp] theorem State.setKeys_stack (k : Vector Bool 16) : (s.setKeys k).stack = s.stack := rfl
@[simp] theorem State.setKeys_fb (k : Vector Bool 16) : (s.setKeys k).fb = s.fb := rfl
@[simp] theorem State.setKeys_keys (k : Vector Bool 16) : (s.setKeys k).keys = k := rfl
@[simp] theorem State.setKeys_exec (k : Vector Bool 16) : (s.setKeys k).exec = s.exec := rfl
@[simp] theorem State.setKeys_DT (k : Vector Bool 16) : (s.setKeys k).DT = s.DT := rfl
@[simp] theorem State.setKeys_ST (k : Vector Bool 16) : (s.setKeys k).ST = s.ST := rfl
@[simp] theorem State.setKeys_loaded (k : Vector Bool 16) : (s.setKeys k).loaded = s.loaded := rfl
@[simp] theorem State.setKeys_glyph (k : Vector Bool 16) : (s.setKeys k).glyph = s.glyph := rfl
@[simp] theorem State.setKeys_inbox (k : Vector Bool 16) : (s.setKeys k).inbox = s.inbox := rfl
@[simp] theorem State.setKeys_rand8 (k : Vector Bool 16) : (s.setKeys k).rand8 = s.rand8 := rfl
@[simp] theorem State.setKeys_draws (k : Vector Bool 16) : (s.setKeys k).draws = s.draws := rfl
@[simp] theorem State.setKeys_result (k : Vector Bool 16) : (s.setKeys k).result = s.result := rfl
@[simp] theorem State.setKeys_getV (k : Vector Bool 16) (j : Nibble) : (s.setKeys k).getV j = s.getV j := rfl
@[simp] theorem State.setKeys_read (k : Vector Bool 16) (j : Addr) : (s.setKeys k).read j = s.read j := rfl
@[simp] theorem State.setKeys_cell (k : Vector Bool 16) (j : Nat) : (s.setKeys k).cell j = s.cell j := rfl
@[simp] theorem State.setKeys_dataAddr (k : Vector Bool 16) (j : Nat) : (s.setKeys k).dataAddr j = s.dataAddr j := rfl

/-! ### setExec -/

@[simp] theorem State.setExec_mem (e : ExecState) : (s.setExec e).mem = s.mem := rfl
@[simp] theorem State.setExec_V (e : ExecState) : (s.setExec e).V = s.V := rfl
@[simp] theorem State.setExec_I (e : ExecState) : (s.setExec e).I = s.I := rfl
@[simp] theorem State.setExec_pc (e : ExecState) : (s.setExec e).pc = s.pc := rfl
@[simp] theorem State.setExec_stack (e : ExecState) : (s.setExec e).stack = s.stack := rfl
@[simp] theorem State.setExec_fb (e : ExecState) : (s.setExec e).fb = s.fb := rfl
@[simp] theorem State.setExec_keys (e : ExecState) : (s.setExec e).keys = s.keys := rfl
@[simp] theorem State.setExec_exec (e : ExecState) : (s.setExec e).exec = e := rfl
@[simp] theorem State.setExec_DT (e : ExecState) : (s.setExec e).DT = s.DT := rfl
@[simp] theorem State.setExec_ST (e : ExecState) : (s.setExec e).ST = s.ST := rfl
@[simp] theorem State.setExec_loaded (e : ExecState) : (s.setExec e).loaded = s.loaded := rfl
@[simp] theorem State.setExec_glyph (e : ExecState) : (s.setExec e).glyph = s.glyph := rfl
@[simp] theorem State.setExec_inbox (e : ExecState) : (s.setExec e).inbox = s.inbox := rfl
@[simp] theorem State.setExec_rand8 (e : ExecState) : (s.setExec e).rand8 = s.rand8 := rfl
@[simp] theorem State.setExec_draws (e : ExecState) : (s.setExec e).draws = s.draws := rfl
@[simp] theorem State.setExec_result (e : ExecState) : (s.setExec e).result = s.result := rfl
@[simp] theorem State.setExec_getV (e : ExecState) (j : Nibble) : (s.setExec e).getV j = s.getV j := rfl
@[simp] theorem State.setExec_getKey (e : ExecState) (j : Nibble) : (s.setExec e).getKey j = s.getKey j := rfl
@[simp] theorem State.setExec_read (e : ExecState) (j : Addr) : (s.setExec e).read j = s.read j := rfl
@[simp] theorem State.setExec_cell (e : ExecState) (j : Nat) : (s.setExec e).cell j = s.cell j := rfl
@[simp] theorem State.setExec_dataAddr (e : ExecState) (j : Nat) : (s.setExec e).dataAddr j = s.dataAddr j := rfl

/-! ### setDT -/

@[simp] theorem State.setDT_mem (v : Byte) : (s.setDT v).mem = s.mem := rfl
@[simp] theorem State.setDT_V (v : Byte) : (s.setDT v).V = s.V := rfl
@[simp] theorem State.setDT_I (v : Byte) : (s.setDT v).I = s.I := rfl
@[simp] theorem State.setDT_pc (v : Byte) : (s.setDT v).pc = s.pc := rfl
@[simp] theorem State.setDT_stack (v : Byte) : (s.setDT v).stack = s.stack := rfl
@[simp] theorem State.setDT_fb (v : Byte) : (s.setDT v).fb = s.fb := rfl
@[simp] theorem State.setDT_keys (v : Byte) : (s.setDT v).keys = s.keys := rfl
@[simp] theorem State.setDT_exec (v : Byte) : (s.setDT v).exec = s.exec := rfl
@[simp] theorem State.setDT_DT (v : Byte) : (s.setDT v).DT = v := rfl
@[simp] theorem State.setDT_ST (v : Byte) : (s.setDT v).ST = s.ST := rfl
@[simp] theorem State.setDT_loaded (v : Byte) : (s.setDT v).loaded = s.loaded := rfl
@[simp] theorem State.setDT_glyph (v : Byte) : (s.setDT v).glyph = s.glyph := rfl
@[simp] theorem State.setDT_inbox (v : Byte) : (s.setDT v).inbox = s.inbox := rfl
@[simp] theorem State.setDT_rand8 (v : Byte) : (s.setDT v).rand8 = s.rand8 := rfl
@[simp] theorem State.setDT_draws (v : Byte) : (s.setDT v).draws = s.draws := rfl
@[simp] theorem State.setDT_result (v : Byte) : (s.setDT v).result = s.result := rfl
@[simp] theorem State.setDT_getV (v : Byte) (j : Nibble) : (s.setDT v).getV j = s.getV j := rfl
@[simp] theorem State.setDT_getKey (v : Byte) (j : Nibble) : (s.setDT v).getKey j = s.getKey j := rfl
@[simp] theorem State.setDT_read (v : Byte) (j : Addr) : (s.setDT v).read j = s.read j := rfl
@[simp] theorem State.setDT_cell (v : Byte) (j : Nat) : (s.setDT v).cell j = s.cell j := rfl
@[simp] theorem State.setDT_dataAddr (v : Byte) (j : Nat) : (s.setDT v).dataAddr j = s.dataAddr j := rfl

/-! ### setST -/

@[simp] theorem State.setST_mem (v : Byte) : (s.setST v).mem = s.mem := rfl
@[simp] theorem State.setST_V (v : Byte) : (s.setST v).V = s.V := rfl
@[simp] theorem State.setST_I (v : Byte) : (s.setST v).I = s.I := rfl
@[simp] theorem State.setST_pc (v : Byte) : (s.setST v).pc = s.pc := rfl
@[simp] theorem State.setST_stack (v : Byte) : (s.setST v).stack = s.stack := rfl
@[simp] theorem State.setST_fb (v : Byte) : (s.setST v).fb = s.fb := rfl
@[simp] theorem State.setST_keys (v : Byte) : (s.setST v).keys = s.keys := rfl
@[simp] theorem State.setST_exec (v : Byte) : (s.setST v).exec = s.exec := rfl
@[simp] theorem State.setST_DT (v : Byte) : (s.setST v).DT = s.DT := rfl
@[simp] theorem State.setST_ST (v : Byte) : (s.setST v).ST = v := rfl
@[simp] theorem State.setST_loaded (v : Byte) : (s.setST v).loaded = s.loaded := rfl
@[simp] theorem State.setST_glyph (v : Byte) : (s.setST v).glyph = s.glyph := rfl
@[simp] theorem State.setST_inbox (v : Byte) : (s.setST v).inbox = s.inbox := rfl
@[simp] theorem State.setST_rand8 (v : Byte) : (s.setST v).rand8 = s.rand8 := rfl
@[simp] theorem State.setST_draws (v : Byte) : (s.setST v).draws = s.draws := rfl
@[simp] theorem State.setST_result (v : Byte) : (s.setST v).result = s.result := rfl
@[simp] theorem State.setST_getV (v : Byte) (j : Nibble) : (s.setST v).getV j = s.getV j := rfl
@[simp] theorem State.setST_getKey (v : Byte) (j : Nibble) : (s.setST v).getKey j = s.getKey j := rfl
@[simp] theorem State.setST_read (v : Byte) (j : Addr) : (s.setST v).read j = s.read j := rfl
@[simp] theorem State.setST_cell (v : Byte) (j : Nat) : (s.setST v).cell j = s.cell j := rfl
@[simp] theorem State.setST_dataAddr (v : Byte) (j : Nat) : (s.setST v).dataAddr j = s.dataAddr j := rfl

/-! ### setLoaded -/

@[simp] theorem State.setLoaded_mem (b : Bool) : (s.setLoaded b).mem = s.mem := rfl
@[simp] theorem State.setLoaded_V (b : Bool) : (s.setLoaded b).V = s.V := rfl
@[simp] theorem State.setLoaded_I (b : Bool) : (s.setLoaded b).I = s.I := rfl
@[simp] theorem State.setLoaded_pc (b : Bool) : (s.setLoaded b).pc = s.pc := rfl
@[simp] theorem State.setLoaded_stack (b : Bool) : (s.setLoaded b).stack = s.stack := rfl
@[simp] theorem State.setLoaded_fb (b : Bool) : (s.setLoaded b).fb = s.fb := rfl
@[simp] theorem State.setLoaded_keys (b : Bool) : (s.setLoaded b).keys = s.keys := rfl
@[simp] theorem State.setLoaded_exec (b : Bool) : (s.setLoaded b).exec = s.exec := rfl
@[simp] theorem State.setLoaded_DT (b : Bool) : (s.setLoaded b).DT = s.DT := rfl
@[simp] theorem State.setLoaded_ST (b : Bool) : (s.setLoaded b).ST = s.ST := rfl
@[simp] theorem State.setLoaded_loaded (b : Bool) : (s.setLoaded b).loaded = b := rfl
@[simp] theorem State.setLoaded_glyph (b : Bool) : (s.setLoaded b).glyph = s.glyph := rfl
@[simp] theorem State.setLoaded_inbox (b : Bool) : (s.setLoaded b).inbox = s.inbox := rfl
@[simp] theorem State.setLoaded_rand8 (b : Bool) : (s.setLoaded b).rand8 = s.rand8 := rfl
@[simp] theorem State.setLoaded_draws (b : Bool) : (s.setLoaded b).draws = s.draws := rfl
@[simp] theorem State.setLoaded_result (b : Bool) : (s.setLoaded b).result = s.result := rfl
@[simp] theorem State.setLoaded_getV (b : Bool) (j : Nibble) : (s.setLoaded b).getV j = s.getV j := rfl
@[simp] theorem State.setLoaded_getKey (b : Bool) (j : Nibble) : (s.setLoaded b).getKey j = s.getKey j := rfl
@[simp] theorem State.setLoaded_read (b : Bool) (j : Addr) : (s.setLoaded b).read j = s.read j := rfl
@[simp] theorem State.setLoaded_cell (b : Bool) (j : Nat) : (s.setLoaded b).cell j = s.cell j := rfl
@[simp] theorem State.setLoaded_dataAddr (b : Bool) (j : Nat) : (s.setLoaded b).dataAddr j = s.dataAddr j := rfl

/-! ### setInbox -/

@[simp] theorem State.setInbox_mem (l : List Event) : (s.setInbox l).mem = s.mem := rfl
@[simp] theorem State.setInbox_V (l : List Event) : (s.setInbox l).V = s.V := rfl
@[simp] theorem State.setInbox_I (l : List Event) : (s.setInbox l).I = s.I := rfl
@[simp] theorem State.setInbox_pc (l : List Event) : (s.setInbox l).pc = s.pc := rfl
@[simp] theorem State.setInbox_stack (l : List Event) : (s.setInbox l).stack = s.stack := rfl
@[simp] theorem State.setInbox_fb (l : List Event) : (s.setInbox l).fb = s.fb := rfl
@[simp] theorem State.setInbox_keys (l : List Event) : (s.setInbox l).keys = s.keys := rfl
@[simp] theorem State.setInbox_exec (l : List Event) : (s.setInbox l).exec = s.exec := rfl
@[simp] theorem State.setInbox_DT (l : List Event) : (s.setInbox l).DT = s.DT := rfl
@[simp] theorem State.setInbox_ST (l : List Event) : (s.setInbox l).ST = s.ST := rfl
@[simp] theorem State.setInbox_loaded (l : List Event) : (s.setInbox l).loaded = s.loaded := rfl
@[simp] theorem State.setInbox_glyph (l : List Event) : (s.setInbox l).glyph = s.glyph := rfl
@[simp] theorem State.setInbox_inbox (l : List Event) : (s.setInbox l).inbox = l := rfl
@[simp] theorem State.setInbox_rand8 (l : List Event) : (s.setInbox l).rand8 = s.rand8 := rfl
@[simp] theorem State.setInbox_draws (l : List Event) : (s.setInbox l).draws = s.draws := rfl
@[simp] theorem State.setInbox_result (l : List Event) : (s.setInbox l).result = s.result := rfl
@[simp] theorem State.setInbox_getV (l : List Event) (j : Nibble) : (s.setInbox l).getV j = s.getV j := rfl
@[simp] theorem State.setInbox_getKey (l : List Event) (j : Nibble) : (s.setInbox l).getKey j = s.getKey j := rfl
@[simp] theorem State.setInbox_read (l : List Event) (j : Addr) : (s.setInbox l).read j = s.read j := rfl
@[simp] theorem State.setInbox_cell (l : List Event) (j : Nat) : (s.setInbox l).cell j = s.cell j := rfl
@[simp] theorem State.setInbox_dataAddr (l : List Event) (j : Nat) : (s.setInbox l).dataAddr j = s.dataAddr j := rfl

/-! ### setRand8 -/

@[simp] theorem State.setRand8_mem (r : Byte) : (s.setRand8 r).mem = s.mem := rfl
@[simp] theorem State.setRand8_V (r : Byte) : (s.setRand8 r).V = s.V := rfl
@[simp] theorem State.setRand8_I (r : Byte) : (s.setRand8 r).I = s.I := rfl
@[simp] theorem State.setRand8_pc (r : Byte) : (s.setRand8 r).pc = s.pc := rfl
@[simp] theorem State.setRand8_stack (r : Byte) : (s.setRand8 r).stack = s.stack := rfl
@[simp] theorem State.setRand8_fb (r : Byte) : (s.setRand8 r).fb = s.fb := rfl
@[simp] theorem State.setRand8_keys (r : Byte) : (s.setRand8 r).keys = s.keys := rfl
@[simp] theorem State.setRand8_exec (r : Byte) : (s.setRand8 r).exec = s.exec := rfl
@[simp] theorem State.setRand8_DT (r : Byte) : (s.setRand8 r).DT = s.DT := rfl
@[simp] theorem State.setRand8_ST (r : Byte) : (s.setRand8 r).ST = s.ST := rfl
@[simp] theorem State.setRand8_loaded (r : Byte) : (s.setRand8 r).loaded = s.loaded := rfl
@[simp] theorem State.setRand8_glyph (r : Byte) : (s.setRand8 r).glyph = s.glyph := rfl
@[simp] theorem State.setRand8_inbox (r : Byte) : (s.setRand8 r).inbox = s.inbox := rfl
@[simp] theorem State.setRand8_rand8 (r : Byte) : (s.setRand8 r).rand8 = r := rfl
@[simp] theorem State.setRand8_draws (r : Byte) : (s.setRand8 r).draws = s.draws := rfl
@[simp] theorem State.setRand8_result (r : Byte) : (s.setRand8 r).result = s.result := rfl
@[simp] theorem State.setRand8_getV (r : Byte) (j : Nibble) : (s.setRand8 r).getV j = s.getV j := rfl
@[simp] theorem State.setRand8_getKey (r : Byte) (j : Nibble) : (s.setRand8 r).getKey j = s.getKey j := rfl
@[simp] theorem State.setRand8_read (r : Byte) (j : Addr) : (s.setRand8 r).read j = s.read j := rfl
@[simp] theorem State.setRand8_cell (r : Byte) (j : Nat) : (s.setRand8 r).cell j = s.cell j := rfl
@[simp] theorem State.setRand8_dataAddr (r : Byte) (j : Nat) : (s.setRand8 r).dataAddr j = s.dataAddr j := rfl

/-! ### setDraws -/

@[simp] theorem State.setDraws_mem (n : Nat) : (s.setDraws n).mem = s.mem := rfl
@[simp] theorem State.setDraws_V (n : Nat) : (s.setDraws n).V = s.V := rfl
@[simp] theorem State.setDraws_I (n : Nat) : (s.setDraws n).I = s.I := rfl
@[simp] theorem State.setDraws_pc (n : Nat) : (s.setDraws n).pc = s.pc := rfl
@[simp] theorem State.setDraws_stack (n : Nat) : (s.setDraws n).stack = s.stack := rfl
@[simp] theorem State.setDraws_fb (n : Nat) : (s.setDraws n).fb = s.fb := rfl
@[simp] theorem State.setDraws_keys (n : Nat) : (s.setDraws n).keys = s.keys := rfl
@[simp] theorem State.setDraws_exec (n : Nat) : (s.setDraws n).exec = s.exec := rfl
@[simp] theorem State.setDraws_DT (n : Nat) : (s.setDraws n).DT = s.DT := rfl
@[simp] theorem State.setDraws_ST (n : Nat) : (s.setDraws n).ST = s.ST := rfl
@[simp] theorem State.setDraws_loaded (n : Nat) : (s.setDraws n).loaded = s.loaded := rfl
@[simp] theorem State.setDraws_glyph (n : Nat) : (s.setDraws n).glyph = s.glyph := rfl
@[simp] theorem State.setDraws_inbox (n : Nat) : (s.setDraws n).inbox = s.inbox := rfl
@[simp] theorem State.setDraws_rand8 (n : Nat) : (s.setDraws n).rand8 = s.rand8 := rfl
@[simp] theorem State.setDraws_draws (n : Nat) : (s.setDraws n).draws = n := rfl
@[simp] theorem State.setDraws_result (n : Nat) : (s.setDraws n).result = s.result := rfl
@[simp] theorem State.setDraws_getV (n : Nat) (j : Nibble) : (s.setDraws n).getV j = s.getV j := rfl
@[simp] theorem State.setDraws_getKey (n : Nat) (j : Nibble) : (s.setDraws n).getKey j = s.getKey j := rfl
@[simp] theorem State.setDraws_read (n : Nat) (j : Addr) : (s.setDraws n).read j = s.read j := rfl
@[simp] theorem State.setDraws_cell (n : Nat) (j : Nat) : (s.setDraws n).cell j = s.cell j := rfl
@[simp] theorem State.setDraws_dataAddr (n : Nat) (j : Nat) : (s.setDraws n).dataAddr j = s.dataAddr j := rfl

/-! ### setResult -/

@[simp] theorem State.setResult_mem (r : Option Result) : (s.setResult r).mem = s.mem := rfl
@[simp] theorem State.setResult_V (r : Option Result) : (s.setResult r).V = s.V := rfl
@[simp] theorem State.setResult_I (r : Option Result) : (s.setResult r).I = s.I := rfl
@[simp] theorem State.setResult_pc (r : Option Result) : (s.setResult r).pc = s.pc := rfl
@[simp] theorem State.setResult_stack (r : Option Result) : (s.setResult r).stack = s.stack := rfl
@[simp] theorem State.setResult_fb (r : Option Result) : (s.setResult r).fb = s.fb := rfl
@[simp] theorem State.setResult_keys (r : Option Result) : (s.setResult r).keys = s.keys := rfl
@[simp] theorem State.setResult_exec (r : Option Result) : (s.setResult r).exec = s.exec := rfl
@[simp] theorem State.setResult_DT (r : Option Result) : (s.setResult r).DT = s.DT := rfl
@[simp] theorem State.setResult_ST (r : Option Result) : (s.setResult r).ST = s.ST := rfl
@[simp] theorem State.setResult_loaded (r : Option Result) : (s.setResult r).loaded = s.loaded := rfl
@[simp] theorem State.setResult_glyph (r : Option Result) : (s.setResult r).glyph = s.glyph := rfl
@[simp] theorem State.setResult_inbox (r : Option Result) : (s.setResult r).inbox = s.inbox := rfl
@[simp] theorem State.setResult_rand8 (r : Option Result) : (s.setResult r).rand8 = s.rand8 := rfl
@[simp] theorem State.setResult_draws (r : Option Result) : (s.setResult r).draws = s.draws := rfl
@[simp] theorem State.setResult_result (r : Option Result) : (s.setResult r).result = r := rfl
@[simp] theorem State.setResult_getV (r : Option Result) (j : Nibble) : (s.setResult r).getV j = s.getV j := rfl
@[simp] theorem State.setResult_getKey (r : Option Result) (j : Nibble) : (s.setResult r).getKey j = s.getKey j := rfl
@[simp] theorem State.setResult_read (r : Option Result) (j : Addr) : (s.setResult r).read j = s.read j := rfl
@[simp] theorem State.setResult_cell (r : Option Result) (j : Nat) : (s.setResult r).cell j = s.cell j := rfl
@[simp] theorem State.setResult_dataAddr (r : Option Result) (j : Nat) : (s.setResult r).dataAddr j = s.dataAddr j := rfl

/-! ### setV -/

@[simp] theorem State.setV_mem (x : Nibble) (v : Byte) : (s.setV x v).mem = s.mem := rfl
@[simp] theorem State.setV_I (x : Nibble) (v : Byte) : (s.setV x v).I = s.I := rfl
@[simp] theorem State.setV_pc (x : Nibble) (v : Byte) : (s.setV x v).pc = s.pc := rfl
@[simp] theorem State.setV_stack (x : Nibble) (v : Byte) : (s.setV x v).stack = s.stack := rfl
@[simp] theorem State.setV_fb (x : Nibble) (v : Byte) : (s.setV x v).fb = s.fb := rfl
@[simp] theorem State.setV_keys (x : Nibble) (v : Byte) : (s.setV x v).keys = s.keys := rfl
@[simp] theorem State.setV_exec (x : Nibble) (v : Byte) : (s.setV x v).exec = s.exec := rfl
@[simp] theorem State.setV_DT (x : Nibble) (v : Byte) : (s.setV x v).DT = s.DT := rfl
@[simp] theorem State.setV_ST (x : Nibble) (v : Byte) : (s.setV x v).ST = s.ST := rfl
@[simp] theorem State.setV_loaded (x : Nibble) (v : Byte) : (s.setV x v).loaded = s.loaded := rfl
@[simp] theorem State.setV_glyph (x : Nibble) (v : Byte) : (s.setV x v).glyph = s.glyph := rfl
@[simp] theorem State.setV_inbox (x : Nibble) (v : Byte) : (s.setV x v).inbox = s.inbox := rfl
@[simp] theorem State.setV_rand8 (x : Nibble) (v : Byte) : (s.setV x v).rand8 = s.rand8 := rfl
@[simp] theorem State.setV_draws (x : Nibble) (v : Byte) : (s.setV x v).draws = s.draws := rfl
@[simp] theorem State.setV_result (x : Nibble) (v : Byte) : (s.setV x v).result = s.result := rfl
@[simp] theorem State.setV_getKey (x : Nibble) (v : Byte) (j : Nibble) : (s.setV x v).getKey j = s.getKey j := rfl
@[simp] theorem State.setV_read (x : Nibble) (v : Byte) (j : Addr) : (s.setV x v).read j = s.read j := rfl
@[simp] theorem State.setV_cell (x : Nibble) (v : Byte) (j : Nat) : (s.setV x v).cell j = s.cell j := rfl
@[simp] theorem State.setV_dataAddr (x : Nibble) (v : Byte) (j : Nat) : (s.setV x v).dataAddr j = s.dataAddr j := rfl

/-! ### setKey -/

@[simp] theorem State.setKey_mem (k : Nibble) (b : Bool) : (s.setKey k b).mem = s.mem := rfl
@[simp] theorem State.setKey_V (k : Nibble) (b : Bool) : (s.setKey k b).V = s.V := rfl
@[simp] theorem State.setKey_I (k : Nibble) (b : Bool) : (s.setKey k b).I = s.I := rfl
@[simp] theorem State.setKey_pc (k : Nibble) (b : Bool) : (s.setKey k b).pc = s.pc := rfl
@[simp] theorem State.setKey_stack (k : Nibble) (b : Bool) : (s.setKey k b).stack = s.stack := rfl
@[simp] theorem State.setKey_fb (k : Nibble) (b : Bool) : (s.setKey k b).fb = s.fb := rfl
@[simp] theorem State.setKey_exec (k : Nibble) (b : Bool) : (s.setKey k b).exec = s.exec := rfl
@[simp] theorem State.setKey_DT (k : Nibble) (b : Bool) : (s.setKey k b).DT = s.DT := rfl
@[simp] theorem State.setKey_ST (k : Nibble) (b : Bool) : (s.setKey k b).ST = s.ST := rfl
@[simp] theorem State.setKey_loaded (k : Nibble) (b : Bool) : (s.setKey k b).loaded = s.loaded := rfl
@[simp] theorem State.setKey_glyph (k : Nibble) (b : Bool) : (s.setKey k b).glyph = s.glyph := rfl
@[simp] theorem State.setKey_inbox (k : Nibble) (b : Bool) : (s.setKey k b).inbox = s.inbox := rfl
@[simp] theorem State.setKey_rand8 (k : Nibble) (b : Bool) : (s.setKey k b).rand8 = s.rand8 := rfl
@[simp] theorem State.setKey_draws (k : Nibble) (b : Bool) : (s.setKey k b).draws = s.draws := rfl
@[simp] theorem State.setKey_result (k : Nibble) (b : Bool) : (s.setKey k b).result = s.result := rfl
@[simp] theorem State.setKey_getV (k : Nibble) (b : Bool) (j : Nibble) : (s.setKey k b).getV j = s.getV j := rfl
@[simp] theorem State.setKey_read (k : Nibble) (b : Bool) (j : Addr) : (s.setKey k b).read j = s.read j := rfl
@[simp] theorem State.setKey_cell (k : Nibble) (b : Bool) (j : Nat) : (s.setKey k b).cell j = s.cell j := rfl
@[simp] theorem State.setKey_dataAddr (k : Nibble) (b : Bool) (j : Nat) : (s.setKey k b).dataAddr j = s.dataAddr j := rfl

/-! ### store -/

@[simp] theorem State.store_V (a : Addr) (v : Byte) : (s.store a v).V = s.V := rfl
@[simp] theorem State.store_I (a : Addr) (v : Byte) : (s.store a v).I = s.I := rfl
@[simp] theorem State.store_pc (a : Addr) (v : Byte) : (s.store a v).pc = s.pc := rfl
@[simp] theorem State.store_stack (a : Addr) (v : Byte) : (s.store a v).stack = s.stack := rfl
@[simp] theorem State.store_fb (a : Addr) (v : Byte) : (s.store a v).fb = s.fb := rfl
@[simp] theorem State.store_keys (a : Addr) (v : Byte) : (s.store a v).keys = s.keys := rfl
@[simp] theorem State.store_exec (a : Addr) (v : Byte) : (s.store a v).exec = s.exec := rfl
@[simp] theorem State.store_DT (a : Addr) (v : Byte) : (s.store a v).DT = s.DT := rfl
@[simp] theorem State.store_ST (a : Addr) (v : Byte) : (s.store a v).ST = s.ST := rfl
@[simp] theorem State.store_loaded (a : Addr) (v : Byte) : (s.store a v).loaded = s.loaded := rfl
@[simp] theorem State.store_glyph (a : Addr) (v : Byte) : (s.store a v).glyph = s.glyph := rfl
@[simp] theorem State.store_inbox (a : Addr) (v : Byte) : (s.store a v).inbox = s.inbox := rfl
@[simp] theorem State.store_rand8 (a : Addr) (v : Byte) : (s.store a v).rand8 = s.rand8 := rfl
@[simp] theorem State.store_draws (a : Addr) (v : Byte) : (s.store a v).draws = s.draws := rfl
@[simp] theorem State.store_result (a : Addr) (v : Byte) : (s.store a v).result = s.result := rfl
@[simp] theorem State.store_getV (a : Addr) (v : Byte) (j : Nibble) : (s.store a v).getV j = s.getV j := rfl
@[simp] theorem State.store_getKey (a : Addr) (v : Byte) (j : Nibble) : (s.store a v).getKey j = s.getKey j := rfl
@[simp] theorem State.store_cell (a : Addr) (v : Byte) (j : Nat) : (s.store a v).cell j = s.cell j := rfl
@[simp] theorem State.store_dataAddr (a : Addr) (v : Byte) (j : Nat) : (s.store a v).dataAddr j = s.dataAddr j := rfl

/-! ### setFlag -/

@[simp] theorem State.setFlag_mem (f : Bool) : (s.setFlag f).mem = s.mem := rfl
@[simp] theorem State.setFlag_I (f : Bool) : (s.setFlag f).I = s.I := rfl
@[simp] theorem State.setFlag_pc (f : Bool) : (s.setFlag f).pc = s.pc := rfl
@[simp] theorem State.setFlag_stack (f : Bool) : (s.setFlag f).stack = s.stack := rfl
@[simp] theorem State.setFlag_fb (f : Bool) : (s.setFlag f).fb = s.fb := rfl
@[simp] theorem State.setFlag_keys (f : Bool) : (s.setFlag f).keys = s.keys := rfl
@[simp] theorem State.setFlag_exec (f : Bool) : (s.setFlag f).exec = s.exec := rfl
@[simp] theorem State.setFlag_DT (f : Bool) : (s.setFlag f).DT = s.DT := rfl
@[simp] theorem State.setFlag_ST (f : Bool) : (s.setFlag f).ST = s.ST := rfl
@[simp] theorem State.setFlag_loaded (f : Bool) : (s.setFlag f).loaded = s.loaded := rfl
@[simp] theorem State.setFlag_glyph (f : Bool) : (s.setFlag f).glyph = s.glyph := rfl
@[simp] theorem State.setFlag_inbox (f : Bool) : (s.setFlag f).inbox = s.inbox := rfl
@[simp] theorem State.setFlag_rand8 (f : Bool) : (s.setFlag f).rand8 = s.rand8 := rfl
@[simp] theorem State.setFlag_draws (f : Bool) : (s.setFlag f).draws = s.draws := rfl
@[simp] theorem State.setFlag_result (f : Bool) : (s.setFlag f).result = s.result := rfl
@[simp] theorem State.setFlag_getKey (f : Bool) (j : Nibble) : (s.setFlag f).getKey j = s.getKey j := rfl
@[simp] theorem State.setFlag_read (f : Bool) (j : Addr) : (s.setFlag f).read j = s.read j := rfl
@[simp] theorem State.setFlag_cell (f : Bool) (j : Nat) : (s.setFlag f).cell j = s.cell j := rfl
@[simp] theorem State.setFlag_dataAddr (f : Bool) (j : Nat) : (s.setFlag f).dataAddr j = s.dataAddr j := rfl

/-! ### setVFlag -/

@[simp] theorem State.setVFlag_mem (x : Nibble) (v : Byte) (f : Bool) : (s.setVFlag x v f).mem = s.mem := rfl
@[simp] theorem State.setVFlag_I (x : Nibble) (v : Byte) (f : Bool) : (s.setVFlag x v f).I = s.I := rfl
@[simp] theorem State.setVFlag_pc (x : Nibble) (v : Byte) (f : Bool) : (s.setVFlag x v f).pc = s.pc := rfl
@[simp] theorem State.setVFlag_stack (x : Nibble) (v : Byte) (f : Bool) : (s.setVFlag x v f).stack = s.stack := rfl
@[simp] theorem State.setVFlag_fb (x : Nibble) (v : Byte) (f : Bool) : (s.setVFlag x v f).fb = s.fb := rfl
@[simp] theorem State.setVFlag_keys (x : Nibble) (v : Byte) (f : Bool) : (s.setVFlag x v f).keys = s.keys := rfl
@[simp] theorem State.setVFlag_exec (x : Nibble) (v : Byte) (f : Bool) : (s.setVFlag x v f).exec = s.exec := rfl
@[simp] theorem State.setVFlag_DT (x : Nibble) (v : Byte) (f : Bool) : (s.setVFlag x v f).DT = s.DT := rfl
@[simp] theorem State.setVFlag_ST (x : Nibble) (v : Byte) (f : Bool) : (s.setVFlag x v f).ST = s.ST := rfl
@[simp] theorem State.setVFlag_loaded (x : Nibble) (v : Byte) (f : Bool) : (s.setVFlag x v f).loaded = s.loaded := rfl
@[simp] theorem State.setVFlag_glyph (x : Nibble) (v : Byte) (f : Bool) : (s.setVFlag x v f).glyph = s.glyph := rfl
@[simp] theorem State.setVFlag_inbox (x : Nibble) (v : Byte) (f : Bool) : (s.setVFlag x v f).inbox = s.inbox := rfl
@[simp] theorem State.setVFlag_rand8 (x : Nibble) (v : Byte) (f : Bool) : (s.setVFlag x v f).rand8 = s.rand8 := rfl
@[simp] theorem State.setVFlag_draws (x : Nibble) (v : Byte) (f : Bool) : (s.setVFlag x v f).draws = s.draws := rfl
@[simp] theorem State.setVFlag_result (x : Nibble) (v : Byte) (f : Bool) : (s.setVFlag x v f).result = s.result := rfl
@[simp] theorem State.setVFlag_getKey (x : Nibble) (v : Byte) (f : Bool) (j : Nibble) : (s.setVFlag x v f).getKey j = s.getKey j := rfl
@[simp] theorem State.setVFlag_read (x : Nibble) (v : Byte) (f : Bool) (j : Addr) : (s.setVFlag x v f).read j = s.read j := rfl
@[simp] theorem State.setVFlag_cell (x : Nibble) (v : Byte) (f : Bool) (j : Nat) : (s.setVFlag x v f).cell j = s.cell j := rfl
@[simp] theorem State.setVFlag_dataAddr (x : Nibble) (v : Byte) (f : Bool) (j : Nat) : (s.setVFlag x v f).dataAddr j = s.dataAddr j := rfl

end Sys2Proof.Machine
end

