-- ==== Sys2Proof/Laws/Registers.lean ====
section
/-! SUPPORT. Reads after writes of the general registers, the key states and the display cells. -/

namespace Sys2Proof.Machine

/-- A register read after a register write. -/
theorem State.getV_setV (s : State) (x r : Nibble) (v : Byte) :
    (s.setV x v).getV r = if r = x then v else s.getV r := by
  simp only [State.getV, State.setV, State.setRegs_V, Vector.getElem_set, BitVec.toNat_inj, eq_comm (a := x)]

@[simp] theorem State.getV_setV_same (s : State) (x : Nibble) (v : Byte) : (s.setV x v).getV x = v := by
  simp [State.getV_setV]

theorem State.getV_setV_ne (s : State) {x r : Nibble} (v : Byte) (h : r ≠ x) : (s.setV x v).getV r = s.getV r := by
  simp [State.getV_setV, h]

/-- VF after a flag write; every other register keeps its value. -/
theorem State.getV_setFlag (s : State) (f : Bool) (r : Nibble) :
    (s.setFlag f).getV r = if r = regVF then flagByte f else s.getV r := State.getV_setV s regVF r _

/-- The registers after a result and its flag: the flag wins in VF (R95). -/
theorem State.getV_setVFlag (s : State) (x : Nibble) (v : Byte) (f : Bool) (r : Nibble) :
    (s.setVFlag x v f).getV r = if r = regVF then flagByte f else if r = x then v else s.getV r := by
  rw [State.setVFlag, State.getV_setFlag, State.getV_setV]

/-- A key state read after a key state was set. -/
theorem State.getKey_setKey (s : State) (k j : Nibble) (b : Bool) :
    (s.setKey k b).getKey j = if j = k then b else s.getKey j := by
  simp only [State.getKey, State.setKey, State.setKeys_keys, Vector.getElem_set, BitVec.toNat_inj, eq_comm (a := k)]

@[simp] theorem Pixels.cell_allOff (i : Nat) : Pixels.cell Pixels.allOff i = false := by
  simp [Pixels.cell, Pixels.row, Pixels.allOff]

/-- A cell read after a toggle: the toggled cell is inverted and no other changes. -/
theorem Pixels.cell_toggle (p : Pixels) {i j : Nat} (hi : i < 2048) (hj : j < 2048) :
    Pixels.cell (Pixels.toggle p i) j = if j = i then !Pixels.cell p j else Pixels.cell p j := by
  have hij : j = i ↔ i / 64 % 32 = j / 64 % 32 ∧ i % 64 = j % 64 := by omega
  have h64 : j % 64 < 64 := Nat.mod_lt _ (by decide)
  simp only [Pixels.cell, Pixels.row, Pixels.toggle, Vector.getElem_set, hij]
  by_cases hr : i / 64 % 32 = j / 64 % 32
  · by_cases hc : i % 64 = j % 64
    · simp [hr, hc, h64]
    · have hc' : ¬j % 64 = i % 64 := fun h => hc h.symm
      simp [hr, hc, hc', h64]
  · simp [hr]

theorem cellIndex_lt (x y : Nat) : cellIndex x y < 2048 := by
  unfold cellIndex; omega

end Sys2Proof.Machine
end

