-- ==== Sys2Proof/Laws/Ops.lean ====
section
/-! SUPPORT. One lemma for each shared operation that says everything it can do; proofs cite these and do not unfold the
operations. -/

namespace Sys2Proof.Machine

variable (s : State)

/-! ### Memory -/

/-- A byte read after a byte was stored: no premise on the memory. -/
theorem State.read_store (a b : Addr) (v : Byte) : (s.store a v).read b = if b = a then v else s.read b := by
  simp only [State.read, State.store, State.setMem_mem, State.setMem_glyph, Memory.read_write, BitVec.toNat_inj]

/-- A store keeps the canonical form of memory. -/
theorem State.wf_store (a : Addr) (v : Byte) (h : Memory.wf s.glyph s.mem) :
    Memory.wf (s.store a v).glyph (s.store a v).mem := Memory.wf_write s.glyph h a.isLt v

theorem State.toNat_dataAddr (k : Nat) : (s.dataAddr k).toNat = (s.I.toNat + k) % 4096 := by
  simp [State.dataAddr, BitVec.toNat_ofNat]

/-- Two offsets less than 4096 apart are two addresses. -/
theorem State.dataAddr_inj {j k : Nat} (hj : j < 4096) (hk : k < 4096) : s.dataAddr j = s.dataAddr k ↔ j = k := by
  rw [← BitVec.toNat_inj, s.toNat_dataAddr, s.toNat_dataAddr]
  omega

/-- The fetch below 0xFFF. -/
theorem State.fetch_of_lt (h : s.pc.toNat < 0xFFF) :
    s.fetch = .ok (s.read (BitVec.ofNat 12 s.pc.toNat) ++ s.read (BitVec.ofNat 12 (s.pc.toNat + 1))) := by
  have h1 : s.pc.toNat < 4096 := by omega
  have h2 : s.pc.toNat + 1 < 4096 := by omega
  simp only [State.fetch, State.readChecked, h1, h2, if_true]

/-- The fetch at 0xFFF and above. -/
theorem State.fetch_of_ge (h : 0xFFF ≤ s.pc.toNat) : s.fetch = .error (.outOfBounds s.pc) := by
  have h2 : ¬s.pc.toNat + 1 < 4096 := by omega
  simp only [State.fetch, State.readChecked, h2, if_false]
  split <;> simp_all

/-- A fetch that gives a word is below 0xFFF. -/
theorem State.pc_lt_of_fetch {w : Word} (h : s.fetch = .ok w) : s.pc.toNat < 0xFFF := by
  by_contra hge
  rw [s.fetch_of_ge (by omega)] at h
  cases h

/-! ### Call stack -/

theorem State.push_of_lt (a : Word) (h : s.stack.length < 16) : s.push a = some (s.setStack (a :: s.stack)) := if_pos h

theorem State.push_of_full (a : Word) (h : 16 ≤ s.stack.length) : s.push a = none := if_neg (by omega)

theorem State.pop_cons {a : Word} {rest : List Word} (h : s.stack = a :: rest) : s.pop = some (a, s.setStack rest) := by
  simp [State.pop, h]

theorem State.pop_nil (h : s.stack = []) : s.pop = none := by simp [State.pop, h]

/-! ### The loops of `Fx55` and `Fx65` -/

/-- The stores of `Fx55` change memory alone. -/
theorem State.storeRegs_eq_setMem (k : Nat) : ∃ m, s.storeRegs k = s.setMem m := by
  induction k with
  | zero => exact ⟨s.mem, rfl⟩
  | succ k ih =>
    obtain ⟨m, hm⟩ := ih
    exact ⟨_, by rw [State.storeRegs, hm]; rfl⟩

/-- The bytes after the first `k` stores of `Fx55`: register `j` at offset `j`. -/
theorem State.read_storeRegs (k : Nat) (hk : k ≤ 16) (a : Addr) :
    ((∀ j < k, a ≠ s.dataAddr j) → (s.storeRegs k).read a = s.read a) ∧
    ∀ j < k, a = s.dataAddr j → (s.storeRegs k).read a = s.getV (BitVec.ofNat 4 j) := by
  induction k with
  | zero => exact ⟨fun _ => rfl, fun j hj => absurd hj (by omega)⟩
  | succ k ih =>
    obtain ⟨ih1, ih2⟩ := ih (by omega)
    simp only [State.storeRegs, State.read_store]
    refine ⟨fun h => ?_, fun j hj ha => ?_⟩
    · rw [if_neg (h k (by omega)), ih1 fun j hj => h j (by omega)]
    · by_cases hjk : j = k
      · subst hjk; rw [if_pos ha]
      · rw [if_neg, ih2 j (by omega) ha]
        rw [ha, s.dataAddr_inj (by omega) (by omega)]
        exact hjk

/-- The stores of `Fx55` keep the canonical form of memory. -/
theorem State.wf_storeRegs (k : Nat) (h : Memory.wf s.glyph s.mem) :
    Memory.wf (s.storeRegs k).glyph (s.storeRegs k).mem := by
  induction k with
  | zero => exact h
  | succ k ih => exact State.wf_store _ _ _ ih

/-- The loads of `Fx65` change the general registers alone. -/
theorem State.loadRegs_eq_setRegs (k : Nat) : ∃ v, s.loadRegs k = s.setRegs v := by
  induction k with
  | zero => exact ⟨s.V, rfl⟩
  | succ k ih =>
    obtain ⟨v, hv⟩ := ih
    exact ⟨_, by rw [State.loadRegs, hv]; rfl⟩

/-- The registers after the first `k` loads of `Fx65`: the byte at offset `r` in register `r`. -/
theorem State.getV_loadRegs (k : Nat) (hk : k ≤ 16) (r : Nibble) :
    (s.loadRegs k).getV r = if r.toNat < k then s.read (s.dataAddr r.toNat) else s.getV r := by
  induction k with
  | zero => simp [State.loadRegs]
  | succ k ih =>
    rw [State.loadRegs, State.getV_setV, ih (by omega)]
    have hr : r = BitVec.ofNat 4 k ↔ r.toNat = k := by
      rw [← BitVec.toNat_inj, BitVec.toNat_ofNat, Nat.mod_eq_of_lt (by omega)]
    by_cases h : r.toNat = k
    · rw [if_pos (hr.mpr h), if_pos (by omega), h]
    · rw [if_neg (mt hr.mp h)]
      by_cases hlt : r.toNat < k
      · rw [if_pos hlt, if_pos (by omega)]
      · rw [if_neg hlt, if_neg (by omega)]

/-! ### The sprite -/

/-- One sprite row: after its first `k` columns a cell is inverted exactly if a set bit addresses it, and the collision is what it
was or a lit cell that a set bit addresses. -/
theorem drawCols_spec (x0 y : Nat) (b : Byte) (d : Pixels × Bool) (k : Nat) (hk : k ≤ 8) :
    (∀ i < 2048, Pixels.cell (drawCols x0 y b d k).1 i =
      (Pixels.cell d.1 i ^^ decide (∃ c < k, b.getLsbD (7 - c) = true ∧ i = cellIndex (x0 + c) y))) ∧
    ((drawCols x0 y b d k).2 =
      (d.2 || decide (∃ c < k, b.getLsbD (7 - c) = true ∧ Pixels.cell d.1 (cellIndex (x0 + c) y) = true))) := by
  induction k with
  | zero => simp [drawCols]
  | succ k ih =>
    obtain ⟨ih1, ih2⟩ := ih (by omega)
    have fresh : ∀ c < k, cellIndex (x0 + c) y ≠ cellIndex (x0 + k) y := by
      intro c hc; unfold cellIndex; omega
    unfold drawCols
    by_cases hb : b.getLsbD (7 - k) = true
    · rw [if_pos hb]
      refine ⟨fun i hi => ?_, ?_⟩
      · simp only [toggleCell]
        rw [Pixels.cell_toggle _ (cellIndex_lt _ _) hi, ih1 i hi]
        by_cases h : i = cellIndex (x0 + k) y
        · have h1 : ¬∃ c < k, b.getLsbD (7 - c) = true ∧ i = cellIndex (x0 + c) y := by
            rintro ⟨c, hc, -, he⟩
            exact fresh c hc (he.symm.trans h)
          have h2 : ∃ c < k + 1, b.getLsbD (7 - c) = true ∧ i = cellIndex (x0 + c) y := ⟨k, by omega, hb, h⟩
          rw [if_pos h, decide_eq_false h1, decide_eq_true h2]
          simp
        · rw [if_neg h]
          congr 1
          rw [decide_eq_decide]
          constructor
          · rintro ⟨c, hc, h3⟩; exact ⟨c, by omega, h3⟩
          · rintro ⟨c, hc, h3, h4⟩
            refine ⟨c, ?_, h3, h4⟩
            by_contra hck
            exact h (by rw [h4, show c = k by omega])
      · simp only [toggleCell]
        rw [ih2, ih1 _ (cellIndex_lt _ _)]
        have h1 : ¬∃ c < k, b.getLsbD (7 - c) = true ∧ cellIndex (x0 + k) y = cellIndex (x0 + c) y := by
          rintro ⟨c, hc, -, he⟩
          exact fresh c hc he.symm
        rw [decide_eq_false h1, Bool.xor_false, Bool.or_assoc]
        congr 1
        rw [Bool.eq_iff_iff]
        simp only [Bool.or_eq_true, decide_eq_true_eq]
        constructor
        · rintro (⟨c, hc, h3⟩ | h3)
          · exact ⟨c, by omega, h3⟩
          · exact ⟨k, by omega, hb, h3⟩
        · rintro ⟨c, hc, h3, h4⟩
          by_cases hck : c = k
          · exact .inr (hck ▸ h4)
          · exact .inl ⟨c, by omega, h3, h4⟩
    · rw [if_neg hb]
      have step : ∀ P : Nat → Prop,
          (∃ c < k + 1, b.getLsbD (7 - c) = true ∧ P c) ↔ ∃ c < k, b.getLsbD (7 - c) = true ∧ P c := by
        intro P
        constructor
        · rintro ⟨c, hc, h3, h4⟩
          refine ⟨c, ?_, h3, h4⟩
          by_contra hck
          exact hb (by rw [← show c = k by omega]; exact h3)
        · rintro ⟨c, hc, h3⟩; exact ⟨c, by omega, h3⟩
      exact ⟨fun i hi => by rw [ih1 i hi, decide_eq_decide.mpr (step _)], by rw [ih2, decide_eq_decide.mpr (step _)]⟩

/-- The sprite's first `k` rows: a cell is inverted exactly if a set bit of one of them addresses it, and the collision is a cell
lit before that one of them addresses. -/
theorem State.drawRows_spec (x0 y0 k : Nat) (hk : k ≤ 16) :
    (∀ i < 2048, ((∃ r < k, ∃ c < 8, (s.read (s.dataAddr r)).getLsbD (7 - c) = true ∧
        i = cellIndex (x0 + c) (y0 + r)) → Pixels.cell (s.drawRows x0 y0 k).1 i = !s.cell i) ∧
      ((¬∃ r < k, ∃ c < 8, (s.read (s.dataAddr r)).getLsbD (7 - c) = true ∧
        i = cellIndex (x0 + c) (y0 + r)) → Pixels.cell (s.drawRows x0 y0 k).1 i = s.cell i)) ∧
    ((s.drawRows x0 y0 k).2 = true ↔ ∃ r < k, ∃ c < 8,
      (s.read (s.dataAddr r)).getLsbD (7 - c) = true ∧ s.cell (cellIndex (x0 + c) (y0 + r)) = true) := by
  induction k with
  | zero => simp [State.drawRows, State.cell]
  | succ k ih =>
    obtain ⟨ih1, ih2⟩ := ih (by omega)
    obtain ⟨hc1, hc2⟩ := drawCols_spec x0 (y0 + k) (s.read (s.dataAddr k)) (s.drawRows x0 y0 k) 8 (by omega)
    have fresh : ∀ r < k, ∀ c c', cellIndex (x0 + c) (y0 + r) ≠ cellIndex (x0 + c') (y0 + k) := by
      intro r hr c c'; unfold cellIndex; omega
    unfold State.drawRows
    refine ⟨fun i hi => ⟨?_, fun h => ?_⟩, ?_⟩
    · rintro ⟨r, hr, c, hc, hb, he⟩
      rw [hc1 i hi]
      by_cases hrk : r = k
      · subst hrk
        rw [(ih1 i hi).2 (by rintro ⟨r', hr', c', -, -, he'⟩; exact fresh r' hr' c' c (he'.symm.trans he)),
          decide_eq_true ⟨c, hc, hb, he⟩, Bool.xor_true]
      · rw [(ih1 i hi).1 ⟨r, by omega, c, hc, hb, he⟩, decide_eq_false, Bool.xor_false]
        rintro ⟨c', -, -, he'⟩
        exact fresh r (by omega) c c' (he.symm.trans he')
    · rw [hc1 i hi, (ih1 i hi).2 (by rintro ⟨r, hr, h2⟩; exact h ⟨r, by omega, h2⟩), decide_eq_false, Bool.xor_false]
      exact fun h2 => h ⟨k, by omega, h2⟩
    · rw [hc2]
      simp only [Bool.or_eq_true, decide_eq_true_eq]
      have old : ∀ c, Pixels.cell (s.drawRows x0 y0 k).1 (cellIndex (x0 + c) (y0 + k)) =
          s.cell (cellIndex (x0 + c) (y0 + k)) := fun c =>
        (ih1 _ (cellIndex_lt _ _)).2 (by rintro ⟨r, hr, c', -, -, he⟩; exact fresh r hr c' c he.symm)
      simp only [old, ih2]
      constructor
      · rintro (⟨r, hr, h2⟩ | h2)
        · exact ⟨r, by omega, h2⟩
        · exact ⟨k, by omega, h2⟩
      · rintro ⟨r, hr, h2⟩
        by_cases hrk : r = k
        · exact .inr (hrk ▸ h2)
        · exact .inl ⟨r, by omega, h2⟩

/-! ### The ends of an instruction -/

theorem State.finishAt_eq (a : Word) : s.finishAt a = .next ((s.setPc a).setResult (some .executed)) := rfl

theorem State.finish_eq : s.finish = .next ((s.setPc (s.pc + 2)).setResult (some .executed)) := rfl

theorem State.skipIf_eq (c : Bool) :
    s.skipIf c = .next ((s.setPc (if c then s.pc + 4 else s.pc + 2)).setResult (some .executed)) := rfl

theorem State.report_eq (c : Condition) :
    s.report c = .next ((s.setPc (s.pc + 2)).setResult (some (.reported c))) := rfl

/-- The key operand: a value that is a key code, or none. -/
theorem keyOperand_cases (v : Byte) :
    (v.toNat ≤ 0x0F ∧ keyOperand v = some (v.setWidth 4)) ∨ (0x0F < v.toNat ∧ keyOperand v = none) := by
  unfold keyOperand
  split
  · next h => exact .inl ⟨h, rfl⟩
  · next h => exact .inr ⟨by omega, rfl⟩

end Sys2Proof.Machine
end

