-- ==== Sys2Proof/Laws/Frame.lean ====
section
/-! SUPPORT. Frames: the identity has the empty frame, frames compose, and each update has the frame of its own field. A frame of
a chain of updates is a chain of these lemmas. -/

namespace Sys2Proof.Machine

variable {ps qs : List Part} {s t u : State}

theorem State.changesOnly_refl (ps : List Part) (s : State) : s.changesOnly ps s := by
  intro p _
  cases p <;> simp [State.agree]

theorem State.changesOnly_mono (h : s.changesOnly ps t) (hs : ps ⊆ qs) : s.changesOnly qs t :=
  fun p hp => h p fun hq => hp (hs hq)

theorem State.agree_trans {p : Part} (h1 : State.agree p s t) (h2 : State.agree p t u) : State.agree p s u := by
  cases p <;> simp_all [State.agree]

theorem State.changesOnly_trans (h1 : s.changesOnly ps t) (h2 : t.changesOnly ps u) : s.changesOnly ps u :=
  fun p hp => State.agree_trans (h1 p hp) (h2 p hp)

theorem State.changesOnly_setMem (m : List Host.Cell) (h : s.changesOnly ps t) (hm : .mem ∈ ps) :
    s.changesOnly ps (t.setMem m) := by
  intro p hp
  have := h p hp
  cases p <;> first | exact this | exact absurd hm hp

theorem State.changesOnly_setRegs (v : Vector Byte 16) (h : s.changesOnly ps t) (hm : .V ∈ ps) :
    s.changesOnly ps (t.setRegs v) := by
  intro p hp
  have := h p hp
  cases p <;> first | exact this | exact absurd hm hp

theorem State.changesOnly_setI (i : Word) (h : s.changesOnly ps t) (hm : .I ∈ ps) :
    s.changesOnly ps (t.setI i) := by
  intro p hp
  have := h p hp
  cases p <;> first | exact this | exact absurd hm hp

theorem State.changesOnly_setPc (a : Word) (h : s.changesOnly ps t) (hm : .pc ∈ ps) :
    s.changesOnly ps (t.setPc a) := by
  intro p hp
  have := h p hp
  cases p <;> first | exact this | exact absurd hm hp

theorem State.changesOnly_setStack (l : List Word) (h : s.changesOnly ps t) (hm : .stack ∈ ps) :
    s.changesOnly ps (t.setStack l) := by
  intro p hp
  have := h p hp
  cases p <;> first | exact this | exact absurd hm hp

theorem State.changesOnly_setFb (p : Pixels) (h : s.changesOnly ps t) (hm : .fb ∈ ps) :
    s.changesOnly ps (t.setFb p) := by
  intro p hp
  have := h p hp
  cases p <;> first | exact this | exact absurd hm hp

theorem State.changesOnly_setKeys (k : Vector Bool 16) (h : s.changesOnly ps t) (hm : .keys ∈ ps) :
    s.changesOnly ps (t.setKeys k) := by
  intro p hp
  have := h p hp
  cases p <;> first | exact this | exact absurd hm hp

theorem State.changesOnly_setExec (e : ExecState) (h : s.changesOnly ps t) (hm : .exec ∈ ps) :
    s.changesOnly ps (t.setExec e) := by
  intro p hp
  have := h p hp
  cases p <;> first | exact this | exact absurd hm hp

theorem State.changesOnly_setDT (v : Byte) (h : s.changesOnly ps t) (hm : .DT ∈ ps) :
    s.changesOnly ps (t.setDT v) := by
  intro p hp
  have := h p hp
  cases p <;> first | exact this | exact absurd hm hp

theorem State.changesOnly_setST (v : Byte) (h : s.changesOnly ps t) (hm : .ST ∈ ps) :
    s.changesOnly ps (t.setST v) := by
  intro p hp
  have := h p hp
  cases p <;> first | exact this | exact absurd hm hp

theorem State.changesOnly_setLoaded (b : Bool) (h : s.changesOnly ps t) (hm : .loaded ∈ ps) :
    s.changesOnly ps (t.setLoaded b) := by
  intro p hp
  have := h p hp
  cases p <;> first | exact this | exact absurd hm hp

theorem State.changesOnly_setInbox (l : List Event) (h : s.changesOnly ps t) (hm : .inbox ∈ ps) :
    s.changesOnly ps (t.setInbox l) := by
  intro p hp
  have := h p hp
  cases p <;> first | exact this | exact absurd hm hp

theorem State.changesOnly_setRand8 (r : Byte) (h : s.changesOnly ps t) (hm : .rand8 ∈ ps) :
    s.changesOnly ps (t.setRand8 r) := by
  intro p hp
  have := h p hp
  cases p <;> first | exact this | exact absurd hm hp

theorem State.changesOnly_setDraws (n : Nat) (h : s.changesOnly ps t) (hm : .draws ∈ ps) :
    s.changesOnly ps (t.setDraws n) := by
  intro p hp
  have := h p hp
  cases p <;> first | exact this | exact absurd hm hp

theorem State.changesOnly_setResult (r : Option Result) (h : s.changesOnly ps t) (hm : .result ∈ ps) :
    s.changesOnly ps (t.setResult r) := by
  intro p hp
  have := h p hp
  cases p <;> first | exact this | exact absurd hm hp

theorem State.changesOnly_setV (x : Nibble) (v : Byte) (h : s.changesOnly ps t) (hm : .V ∈ ps) :
    s.changesOnly ps (t.setV x v) := State.changesOnly_setRegs _ h hm

theorem State.changesOnly_setFlag (f : Bool) (h : s.changesOnly ps t) (hm : .V ∈ ps) :
    s.changesOnly ps (t.setFlag f) := State.changesOnly_setRegs _ h hm

theorem State.changesOnly_setKey (k : Nibble) (b : Bool) (h : s.changesOnly ps t) (hm : .keys ∈ ps) :
    s.changesOnly ps (t.setKey k b) := State.changesOnly_setKeys _ h hm

theorem State.changesOnly_store (a : Addr) (v : Byte) (h : s.changesOnly ps t) (hm : .mem ∈ ps) :
    s.changesOnly ps (t.store a v) := State.changesOnly_setMem _ h hm

theorem State.changesOnly_setVFlag (x : Nibble) (v : Byte) (f : Bool) (h : s.changesOnly ps t) (hm : .V ∈ ps) :
    s.changesOnly ps (t.setVFlag x v f) := State.changesOnly_setRegs _ (State.changesOnly_setRegs _ h hm) hm

/-- The frame of the end of an instruction: `pc` and the result. -/
theorem State.changesOnly_end (a : Word) (r : Option Result) (h : s.changesOnly ps t) (hp : .pc ∈ ps) (hr : .result ∈ ps) :
    s.changesOnly ps ((t.setPc a).setResult r) := State.changesOnly_setResult _ (State.changesOnly_setPc _ h hp) hr

/-- The stores of `Fx55` change memory alone. -/
theorem State.changesOnly_storeRegs (k : Nat) (h : s.changesOnly ps t) (hm : .mem ∈ ps) :
    s.changesOnly ps (t.storeRegs k) := by
  obtain ⟨m, hm'⟩ := t.storeRegs_eq_setMem k
  rw [hm']
  exact State.changesOnly_setMem m h hm

/-- The loads of `Fx65` change the general registers alone. -/
theorem State.changesOnly_loadRegs (k : Nat) (h : s.changesOnly ps t) (hm : .V ∈ ps) :
    s.changesOnly ps (t.loadRegs k) := by
  obtain ⟨v, hv⟩ := t.loadRegs_eq_setRegs k
  rw [hv]
  exact State.changesOnly_setRegs v h hm

end Sys2Proof.Machine
end

