-- ==== Sys2Proof/Laws/PerInstr.lean ====
section
/-! SUPPORT. Per instruction: the word it encodes to matches its own row of the opcode map, and the map has that row
(30_encoding.md R75). -/

namespace Sys2Proof

/-! ### What each mask of the map leaves of a word of each format -/

theorem shapeA_and_F000 (g : Nibble) (t : Addr) : shapeA g t &&& 0xF000 = shapeA g 0 := by
  refine BitVec.eq_of_getLsbD_eq fun i hi => ?_
  rw [BitVec.getLsbD_and, getLsbD_shapeA, getLsbD_shapeA]
  interval_cases i <;> simp

theorem shapeXI_and_F000 (g x : Nibble) (b : Byte) : shapeXI g x b &&& 0xF000 = shapeXI g 0 0 :=
  shapeA_and_F000 g (x ++ b)

theorem shapeXY_and_F000 (g x y n : Nibble) : shapeXY g x y n &&& 0xF000 = shapeXY g 0 0 0 :=
  shapeA_and_F000 g (x ++ (y ++ n))

theorem shapeXI_and_F0FF (g x : Nibble) (b : Byte) : shapeXI g x b &&& 0xF0FF = shapeXI g 0 b := by
  refine BitVec.eq_of_getLsbD_eq fun i hi => ?_
  rw [BitVec.getLsbD_and, getLsbD_shapeXI, getLsbD_shapeXI]
  interval_cases i <;> simp

theorem shapeXY_and_F00F (g x y n : Nibble) : shapeXY g x y n &&& 0xF00F = shapeXY g 0 0 n := by
  refine BitVec.eq_of_getLsbD_eq fun i hi => ?_
  rw [BitVec.getLsbD_and, getLsbD_shapeXY, getLsbD_shapeXY]
  interval_cases i <;> simp

/-- The word of an instruction matches its row, and the row is one of the map's. -/
def Laws.OpcodeMap.Statement (i : Instr) : Prop := encode i &&& i.row.mask = i.row.pattern ∧ i.row ∈ opcodeTable

namespace Laws.OpcodeMap

theorem op00E0 : Statement .op00E0 :=
  ⟨by decide, by simp [opcodeTable, Instr.row]⟩

theorem op00EE : Statement .op00EE :=
  ⟨by decide, by simp [opcodeTable, Instr.row]⟩

theorem op1nnn (nnn : Addr) : Statement (.op1nnn nnn) :=
  ⟨(shapeA_and_F000 0x1 nnn).trans rfl, by simp [opcodeTable, Instr.row]⟩

theorem op2nnn (nnn : Addr) : Statement (.op2nnn nnn) :=
  ⟨(shapeA_and_F000 0x2 nnn).trans rfl, by simp [opcodeTable, Instr.row]⟩

theorem op3xnn (x : Nibble) (nn : Byte) : Statement (.op3xnn x nn) :=
  ⟨(shapeXI_and_F000 0x3 x nn).trans rfl, by simp [opcodeTable, Instr.row]⟩

theorem op4xnn (x : Nibble) (nn : Byte) : Statement (.op4xnn x nn) :=
  ⟨(shapeXI_and_F000 0x4 x nn).trans rfl, by simp [opcodeTable, Instr.row]⟩

theorem op5xy0 (x : Nibble) (y : Nibble) (n : Nibble) : Statement (.op5xy0 x y n) :=
  ⟨(shapeXY_and_F000 0x5 x y n).trans rfl, by simp [opcodeTable, Instr.row]⟩

theorem op6xnn (x : Nibble) (nn : Byte) : Statement (.op6xnn x nn) :=
  ⟨(shapeXI_and_F000 0x6 x nn).trans rfl, by simp [opcodeTable, Instr.row]⟩

theorem op7xnn (x : Nibble) (nn : Byte) : Statement (.op7xnn x nn) :=
  ⟨(shapeXI_and_F000 0x7 x nn).trans rfl, by simp [opcodeTable, Instr.row]⟩

theorem op8xy0 (x : Nibble) (y : Nibble) : Statement (.op8xy0 x y) :=
  ⟨(shapeXY_and_F00F 0x8 x y 0x0).trans rfl, by simp [opcodeTable, Instr.row]⟩

theorem op8xy1 (x : Nibble) (y : Nibble) : Statement (.op8xy1 x y) :=
  ⟨(shapeXY_and_F00F 0x8 x y 0x1).trans rfl, by simp [opcodeTable, Instr.row]⟩

theorem op8xy2 (x : Nibble) (y : Nibble) : Statement (.op8xy2 x y) :=
  ⟨(shapeXY_and_F00F 0x8 x y 0x2).trans rfl, by simp [opcodeTable, Instr.row]⟩

theorem op8xy3 (x : Nibble) (y : Nibble) : Statement (.op8xy3 x y) :=
  ⟨(shapeXY_and_F00F 0x8 x y 0x3).trans rfl, by simp [opcodeTable, Instr.row]⟩

theorem op8xy4 (x : Nibble) (y : Nibble) : Statement (.op8xy4 x y) :=
  ⟨(shapeXY_and_F00F 0x8 x y 0x4).trans rfl, by simp [opcodeTable, Instr.row]⟩

theorem op8xy5 (x : Nibble) (y : Nibble) : Statement (.op8xy5 x y) :=
  ⟨(shapeXY_and_F00F 0x8 x y 0x5).trans rfl, by simp [opcodeTable, Instr.row]⟩

theorem op8xy6 (x : Nibble) (y : Nibble) : Statement (.op8xy6 x y) :=
  ⟨(shapeXY_and_F00F 0x8 x y 0x6).trans rfl, by simp [opcodeTable, Instr.row]⟩

theorem op8xy7 (x : Nibble) (y : Nibble) : Statement (.op8xy7 x y) :=
  ⟨(shapeXY_and_F00F 0x8 x y 0x7).trans rfl, by simp [opcodeTable, Instr.row]⟩

theorem op8xyE (x : Nibble) (y : Nibble) : Statement (.op8xyE x y) :=
  ⟨(shapeXY_and_F00F 0x8 x y 0xE).trans rfl, by simp [opcodeTable, Instr.row]⟩

theorem op9xy0 (x : Nibble) (y : Nibble) (n : Nibble) : Statement (.op9xy0 x y n) :=
  ⟨(shapeXY_and_F000 0x9 x y n).trans rfl, by simp [opcodeTable, Instr.row]⟩

theorem opAnnn (nnn : Addr) : Statement (.opAnnn nnn) :=
  ⟨(shapeA_and_F000 0xA nnn).trans rfl, by simp [opcodeTable, Instr.row]⟩

theorem opBnnn (nnn : Addr) : Statement (.opBnnn nnn) :=
  ⟨(shapeA_and_F000 0xB nnn).trans rfl, by simp [opcodeTable, Instr.row]⟩

theorem opCxnn (x : Nibble) (nn : Byte) : Statement (.opCxnn x nn) :=
  ⟨(shapeXI_and_F000 0xC x nn).trans rfl, by simp [opcodeTable, Instr.row]⟩

theorem opDxyn (x : Nibble) (y : Nibble) (n : Nibble) : Statement (.opDxyn x y n) :=
  ⟨(shapeXY_and_F000 0xD x y n).trans rfl, by simp [opcodeTable, Instr.row]⟩

theorem opEx9E (x : Nibble) : Statement (.opEx9E x) :=
  ⟨(shapeXI_and_F0FF 0xE x 0x9E).trans rfl, by simp [opcodeTable, Instr.row]⟩

theorem opExA1 (x : Nibble) : Statement (.opExA1 x) :=
  ⟨(shapeXI_and_F0FF 0xE x 0xA1).trans rfl, by simp [opcodeTable, Instr.row]⟩

theorem opFx07 (x : Nibble) : Statement (.opFx07 x) :=
  ⟨(shapeXI_and_F0FF 0xF x 0x07).trans rfl, by simp [opcodeTable, Instr.row]⟩

theorem opFx0A (x : Nibble) : Statement (.opFx0A x) :=
  ⟨(shapeXI_and_F0FF 0xF x 0x0A).trans rfl, by simp [opcodeTable, Instr.row]⟩

theorem opFx15 (x : Nibble) : Statement (.opFx15 x) :=
  ⟨(shapeXI_and_F0FF 0xF x 0x15).trans rfl, by simp [opcodeTable, Instr.row]⟩

theorem opFx18 (x : Nibble) : Statement (.opFx18 x) :=
  ⟨(shapeXI_and_F0FF 0xF x 0x18).trans rfl, by simp [opcodeTable, Instr.row]⟩

theorem opFx1E (x : Nibble) : Statement (.opFx1E x) :=
  ⟨(shapeXI_and_F0FF 0xF x 0x1E).trans rfl, by simp [opcodeTable, Instr.row]⟩

theorem opFx29 (x : Nibble) : Statement (.opFx29 x) :=
  ⟨(shapeXI_and_F0FF 0xF x 0x29).trans rfl, by simp [opcodeTable, Instr.row]⟩

theorem opFx33 (x : Nibble) : Statement (.opFx33 x) :=
  ⟨(shapeXI_and_F0FF 0xF x 0x33).trans rfl, by simp [opcodeTable, Instr.row]⟩

theorem opFx55 (x : Nibble) : Statement (.opFx55 x) :=
  ⟨(shapeXI_and_F0FF 0xF x 0x55).trans rfl, by simp [opcodeTable, Instr.row]⟩

theorem opFx65 (x : Nibble) : Statement (.opFx65 x) :=
  ⟨(shapeXI_and_F0FF 0xF x 0x65).trans rfl, by simp [opcodeTable, Instr.row]⟩

end Laws.OpcodeMap

end Sys2Proof
end

