-- ==== Sys2Proof/Laws/Step.lean ====
section
/-! SUPPORT. What a Cycle, an event and a step can do, said once: each lemma takes an answer and gives the cases it comes from. -/

namespace Sys2Proof.Machine

variable {s t : State}

/-! ### The cases of the Cycle, forwards -/

theorem cycle_of_awaiting (r : Byte) {x : Nibble} (hl : s.loaded = true) (he : s.exec = .awaitingKey x) :
    cycle r s = .next (s.setResult (some .idle)) := by simp [cycle, hl, he]

theorem cycle_of_resuming (r : Byte) (hl : s.loaded = true) (he : s.exec = .resuming) :
    cycle r s = .next (((s.setPc (s.pc + 2)).setExec .running).setResult (some .retired)) := by simp [cycle, hl, he]

theorem cycle_of_fetch_error (r : Byte) {f : Fault} (hl : s.loaded = true) (he : s.exec = .running)
    (hf : s.fetch = .error f) : cycle r s = .fault f := by simp [cycle, hl, he, hf, abort]

theorem cycle_of_unknown (r : Byte) {w : Word} {e : Reject} (hl : s.loaded = true) (he : s.exec = .running)
    (hf : s.fetch = .ok w) (hd : decode w = .error e) : cycle r s = s.report (.unknownOpcode w) := by
  simp [cycle, hl, he, hf, hd]

theorem cycle_of_instr (r : Byte) {w : Word} {i : Instr} (hl : s.loaded = true) (he : s.exec = .running)
    (hf : s.fetch = .ok w) (hd : decode w = .ok i) : cycle r s = exec i (s.setRand8 r) := by
  simp [cycle, hl, he, hf, hd]

theorem cycle_of_not_loaded (r : Byte) (hl : s.loaded = false) : cycle r s = .refused .notLoaded := by
  simp [cycle, hl]

/-! ### And backwards -/

/-- A Cycle that answers a next state was idle, retired an `Fx0A`, reported an unknown word, or ran an instruction. -/
theorem cycle_next_cases {r : Byte} (h : cycle r s = .next t) :
    s.loaded = true ∧
    ((∃ x, s.exec = .awaitingKey x ∧ t = s.setResult (some .idle)) ∨
     (s.exec = .resuming ∧ t = ((s.setPc (s.pc + 2)).setExec .running).setResult (some .retired)) ∨
     (s.exec = .running ∧ ∃ w, s.fetch = .ok w ∧
       ((∃ e, decode w = .error e) ∧ t = (s.setPc (s.pc + 2)).setResult (some (.reported (.unknownOpcode w))) ∨
        ∃ i, decode w = .ok i ∧ exec i (s.setRand8 r) = .next t))) := by
  cases hl : s.loaded with
  | false => rw [cycle_of_not_loaded r hl] at h; cases h
  | true =>
    refine ⟨rfl, ?_⟩
    cases he : s.exec with
    | awaitingKey x =>
      rw [cycle_of_awaiting r hl he] at h
      cases h
      exact .inl ⟨x, rfl, rfl⟩
    | resuming =>
      rw [cycle_of_resuming r hl he] at h
      cases h
      exact .inr (.inl ⟨rfl, rfl⟩)
    | running =>
      refine .inr (.inr ⟨rfl, ?_⟩)
      cases hf : s.fetch with
      | error f => rw [cycle_of_fetch_error r hl he hf] at h; cases h
      | ok w =>
        refine ⟨w, rfl, ?_⟩
        cases hd : decode w with
        | error e =>
          rw [cycle_of_unknown r hl he hf hd, State.report_eq] at h
          cases h
          exact .inl ⟨⟨e, rfl⟩, rfl⟩
        | ok i =>
          rw [cycle_of_instr r hl he hf hd] at h
          exact .inr ⟨i, rfl, h⟩

/-- A Cycle that faults fetched at 0xFFF or above, or ran an instruction that faults. -/
theorem cycle_fault_cases {r : Byte} {f : Fault} (h : cycle r s = .fault f) :
    s.loaded = true ∧ s.exec = .running ∧
    ((0xFFF ≤ s.pc.toNat ∧ f = .outOfBounds s.pc) ∨
     ∃ w i, s.fetch = .ok w ∧ decode w = .ok i ∧ exec i (s.setRand8 r) = .fault f) := by
  cases hl : s.loaded with
  | false => rw [cycle_of_not_loaded r hl] at h; cases h
  | true =>
    cases he : s.exec with
    | awaitingKey x => rw [cycle_of_awaiting r hl he] at h; cases h
    | resuming => rw [cycle_of_resuming r hl he] at h; cases h
    | running =>
      refine ⟨rfl, rfl, ?_⟩
      by_cases hp : s.pc.toNat < 0xFFF
      · right
        cases hf : s.fetch with
        | error g => rw [s.fetch_of_lt hp] at hf; cases hf
        | ok w =>
          cases hd : decode w with
          | error e => rw [cycle_of_unknown r hl he hf hd, State.report_eq] at h; cases h
          | ok i =>
            rw [cycle_of_instr r hl he hf hd] at h
            exact ⟨w, i, rfl, hd, h⟩
      · left
        rw [cycle_of_fetch_error r hl he (s.fetch_of_ge (by omega))] at h
        cases h
        exact ⟨by omega, rfl⟩

/-- A Tick steps both timers, or is refused. -/
theorem tick_of_loaded (hl : s.loaded = true) :
    tick s = .next (((s.setDT (tickTimer s.DT)).setST (tickTimer s.ST)).setResult none) := by simp [tick, hl]

theorem toNat_tickTimer (v : Byte) : (tickTimer v).toNat = v.toNat - 1 := by
  unfold tickTimer
  split
  · next h => subst h; rfl
  · next h =>
    have : v.toNat ≠ 0 := fun h0 => h (BitVec.eq_of_toNat_eq h0)
    rw [BitVec.toNat_sub]
    have := v.isLt
    simp
    omega

/-- A Key event on a loaded machine: it sets the slot, and a press transition during a wait also latches the code. -/
theorem key_of_loaded (code : Nibble) (pressed : Bool) (hl : s.loaded = true) :
    ((∃ x, s.exec = .awaitingKey x ∧ pressed = true ∧ s.getKey code = false ∧
      key code pressed s = .next (((s.setKey code pressed).setResult none).latchKey x code)) ∨
    ((pressed = false ∨ s.getKey code = true ∨ ∀ x, s.exec ≠ .awaitingKey x) ∧
      key code pressed s = .next ((s.setKey code pressed).setResult none))) := by
  cases he : s.exec with
  | running => right; exact ⟨.inr (.inr (by simp)), by simp [key, hl, he]⟩
  | resuming => right; exact ⟨.inr (.inr (by simp)), by simp [key, hl, he]⟩
  | awaitingKey x =>
    cases pressed <;> cases hk : s.getKey code
    · right; simp [key, hl, he]
    · right; simp [key, hl, he]
    · left; exact ⟨x, rfl, rfl, rfl, by simp [key, hl, he, hk]⟩
    · right; simp [key, hl, he, hk]

/-- A Load: refused whole when the image is too long, and a reset with the image otherwise. -/
theorem load_cases (bytes : List Byte) :
    (maxProgram < bytes.length ∧ load bytes s = .next (s.setResult (some (.refused bytes.length)))) ∨
    (bytes.length ≤ maxProgram ∧ load bytes s = .next (s.afterLoad bytes)) := by
  unfold load
  split
  · next h => exact .inl ⟨h, rfl⟩
  · next h => exact .inr ⟨by omega, rfl⟩

/-- A step is the first event of the inbox, or a Cycle with a free random byte when the inbox is empty. -/
theorem step_cases (s : State) :
    (s.inbox = [] ∧ step s = cycle (Config.rand8 s.draws) (s.setDraws (s.draws + 1))) ∨
    (∃ e rest, s.inbox = e :: rest ∧ step s = event e (s.setInbox rest)) := by
  cases h : s.inbox with
  | nil => exact .inl ⟨rfl, by simp [step, nextEvent, h]⟩
  | cons e rest => exact .inr ⟨e, rest, rfl, by simp [step, nextEvent, h]⟩

end Sys2Proof.Machine
end

