-- ==== Sys2Proof/WellFormed.lean ====
section
/-! DEFINITION. The check on an instruction as syntax. Every operand's range is its type's (a register index has 4 bits,
an immediate 8, an address 12), so an index out of range cannot be written. What is left to check is the spelling: the
canonical encoding of `5xy0` and `9xy0` has `w[3:0] = 0` (30_encoding.md R76). The machine runs the other spellings just
the same, so no statement about a step takes this check as a premise. -/

namespace Sys2Proof

/-- The instruction is in the canonical spelling, "the one an assembler emits" (R76). -/
def Instr.wellFormed : Instr → Bool
  | .op5xy0 _ _ n => n == 0
  | .op9xy0 _ _ n => n == 0
  | .op00E0 | .op00EE | .op1nnn _ | .op2nnn _ | .op3xnn _ _ | .op4xnn _ _ | .op6xnn _ _ | .op7xnn _ _
  | .op8xy0 _ _ | .op8xy1 _ _ | .op8xy2 _ _ | .op8xy3 _ _ | .op8xy4 _ _ | .op8xy5 _ _ | .op8xy6 _ _ | .op8xy7 _ _
  | .op8xyE _ _ | .opAnnn _ | .opBnnn _ | .opCxnn _ _ | .opDxyn _ _ _ | .opEx9E _ | .opExA1 _ | .opFx07 _
  | .opFx0A _ | .opFx15 _ | .opFx18 _ | .opFx1E _ | .opFx29 _ | .opFx33 _ | .opFx55 _ | .opFx65 _ => true

end Sys2Proof
end

