-- ==== Sys2Proof/Tests/Slice0.lean ====
section
/-! SUPPORT. Tests. Every expected value is the spec's: S and T numbers are the vectors of 95_test_vectors.md, R numbers the rules.
After them, a witness for the hypotheses of each statement that has some. -/

namespace Sys2Proof.Tests

open Sys2Proof.Machine

/-- The reset state with one instruction word where the next step fetches it. -/
def word (w : Nat) : State := State.reset.withFetchWord 16 w

/-- The outcome is a next state with this property. -/
def gives (o : Outcome) (p : State → Bool) : Bool :=
  match o with
  | .next t => p t
  | .fault _ => false
  | .refused _ => false

/-- The outcome is this fault. -/
def faults (o : Outcome) (f : Fault) : Bool :=
  match o with
  | .next _ => false
  | .fault g => g == f
  | .refused _ => false

/-- The outcome is the refusal of an event before the first Load. -/
def isNotLoaded (o : Outcome) : Bool :=
  match o with
  | .next _ => false
  | .fault _ => false
  | .refused r => r == .notLoaded

/-- The state the outcome gives, where it gives one. -/
def after (o : Outcome) : State :=
  match o with
  | .next t => t
  | .fault _ => State.reset
  | .refused _ => State.reset

/-- The machine pc, for a short test. -/
def pcIs (a : Word) (t : State) : Bool := t.pc == a

/-! ### Well-formedness: the spelling an assembler emits (R76) -/

theorem test_wellFormed_5xy0_refuses_other_spelling : (Instr.op5xy0 0xA 0xB 7).wellFormed = false := by decide
theorem test_wellFormed_9xy0_refuses_other_spelling : (Instr.op9xy0 0xA 0xB 1).wellFormed = false := by decide
theorem test_wellFormed_accepts_canonical :
    (Instr.op5xy0 0xA 0xB 0).wellFormed = true ∧ (Instr.op9xy0 3 3 0).wellFormed = true ∧
    (Instr.opDxyn 1 2 5).wellFormed = true := by decide

/-! ### Decoding: a word written out from the table of R75 for every constructor -/

theorem test_decode_display_words :
    decode 0b0000000011100000 = .ok .op00E0 ∧ decode 0b1101000100100101 = .ok (.opDxyn 0b0001 0b0010 0b0101) := by decide
theorem test_decode_control_words :
    decode 0b0000000011101110 = .ok .op00EE ∧ decode 0b0001111111111111 = .ok (.op1nnn 0b111111111111) ∧
    decode 0b0010101010111100 = .ok (.op2nnn 0b101010111100) ∧
    decode 0b0011101000111100 = .ok (.op3xnn 0b1010 0b00111100) ∧
    decode 0b0100101000111100 = .ok (.op4xnn 0b1010 0b00111100) ∧
    decode 0b0101101010110000 = .ok (.op5xy0 0b1010 0b1011 0) ∧
    decode 0b1001101010110000 = .ok (.op9xy0 0b1010 0b1011 0) ∧
    decode 0b1011001100000001 = .ok (.opBnnn 0b001100000001) := by decide
theorem test_decode_load_and_add_words :
    decode 0b0110101000111100 = .ok (.op6xnn 0b1010 0b00111100) ∧
    decode 0b0111101000000001 = .ok (.op7xnn 0b1010 0b00000001) ∧
    decode 0b1100101000001111 = .ok (.opCxnn 0b1010 0b00001111) := by decide
theorem test_decode_group8_words :
    decode 0b1000101010110000 = .ok (.op8xy0 0b1010 0b1011) ∧ decode 0b1000101010110001 = .ok (.op8xy1 0b1010 0b1011) ∧
    decode 0b1000101010110010 = .ok (.op8xy2 0b1010 0b1011) ∧ decode 0b1000101010110011 = .ok (.op8xy3 0b1010 0b1011) ∧
    decode 0b1000101010110100 = .ok (.op8xy4 0b1010 0b1011) ∧ decode 0b1000101010110101 = .ok (.op8xy5 0b1010 0b1011) ∧
    decode 0b1000101010110110 = .ok (.op8xy6 0b1010 0b1011) ∧ decode 0b1000101010110111 = .ok (.op8xy7 0b1010 0b1011) ∧
    decode 0b1000101010111110 = .ok (.op8xyE 0b1010 0b1011) := by decide
theorem test_decode_index_words :
    decode 0b1010000100100011 = .ok (.opAnnn 0b000100100011) ∧ decode 0b1111101000011110 = .ok (.opFx1E 0b1010) ∧
    decode 0b1111101000101001 = .ok (.opFx29 0b1010) ∧ decode 0b1111101000110011 = .ok (.opFx33 0b1010) ∧
    decode 0b1111001101010101 = .ok (.opFx55 0b0011) ∧ decode 0b1111001001100101 = .ok (.opFx65 0b0010) := by decide
theorem test_decode_input_and_timer_words :
    decode 0b1110101010011110 = .ok (.opEx9E 0b1010) ∧ decode 0b1110101010100001 = .ok (.opExA1 0b1010) ∧
    decode 0b1111010100001010 = .ok (.opFx0A 0b0101) ∧ decode 0b1111101000000111 = .ok (.opFx07 0b1010) ∧
    decode 0b1111101000010101 = .ok (.opFx15 0b1010) ∧ decode 0b1111101000011000 = .ok (.opFx18 0b1010) := by decide

/-- T12, T15: the low nibble of groups 5 and 9 is ignored. T121 to T125: the unknown words. -/
theorem test_decode_other_spellings :
    decode 0x5AB7 = .ok (.op5xy0 0xA 0xB 7) ∧ decode 0x9AB1 = .ok (.op9xy0 0xA 0xB 1) := by decide
theorem test_decode_unknown_words_groups_0_8 :
    decode 0x0000 = .error (.unknownOpcode 0x0000) ∧ decode 0x00E1 = .error (.unknownOpcode 0x00E1) ∧
    decode 0x01E0 = .error (.unknownOpcode 0x01E0) ∧ decode 0x00EF = .error (.unknownOpcode 0x00EF) ∧
    decode 0x0FFF = .error (.unknownOpcode 0x0FFF) ∧ decode 0x8008 = .error (.unknownOpcode 0x8008) ∧
    decode 0x800F = .error (.unknownOpcode 0x800F) := by decide
theorem test_decode_unknown_words_groups_E_F :
    decode 0xE000 = .error (.unknownOpcode 0xE000) ∧ decode 0xE09F = .error (.unknownOpcode 0xE09F) ∧
    decode 0xF000 = .error (.unknownOpcode 0xF000) ∧ decode 0xF01F = .error (.unknownOpcode 0xF01F) ∧
    decode 0xF075 = .error (.unknownOpcode 0xF075) ∧ decode 0xF132 = .error (.unknownOpcode 0xF132) ∧
    decode 0xF0FF = .error (.unknownOpcode 0xF0FF) := by decide
/-- The first byte of the stream is the high one (R55), and the rest is given back. -/
theorem test_decodeBytes_is_big_endian :
    decodeBytes [0x6A, 0x3C, 0x12] = .ok (.op6xnn 0xA 0x3C, [0x12]) ∧ decodeBytes [0x6A] = .error .truncated := by
  constructor <;> rfl

/-! ### Reset, Load and the created machine -/

theorem test_reset_memory_canonical : Memory.wf State.reset.glyph State.reset.mem := by decide
/-- S1: the byte after the image is 0. -/
theorem test_load_installs_image :
    gives (event (.load [0x12, 0x00]) State.reset) (fun t =>
      t.read 0x200 == 0x12 && t.read 0x201 == 0 && t.read 0x202 == 0 && t.result == some .ok) = true := by decide
/-- S2. -/
theorem test_load_too_long_changes_nothing :
    event (.load (List.replicate 3585 0xFF)) (word 0x6A3C) = .next ((word 0x6A3C).setResult (some (.refused 3585))) := by
  rcases load_cases (s := word 0x6A3C) (List.replicate 3585 0xFF) with ⟨_, h⟩ | ⟨h, _⟩
  · rw [List.length_replicate] at h
    exact h
  · rw [List.length_replicate] at h
    exact absurd h (by decide)
/-- T108: a Load ends a wait. -/
theorem test_load_ends_a_wait :
    gives (event (.load []) (State.reset.setExec (.awaitingKey 5))) (fun t => t.exec == .running) = true := by decide
/-- T127. -/
theorem test_created_refuses_events :
    isNotLoaded (event (.cycle 0) (State.created Config.defaultGlyph)) = true ∧
    isNotLoaded (event .tick (State.created Config.defaultGlyph)) = true ∧
    isNotLoaded (event (.key 3 true) (State.created Config.defaultGlyph)) = true := by decide
/-- R35: the created memory is all zero, at the first glyph byte too. -/
theorem test_created_memory_zero :
    (State.created Config.defaultGlyph).read 0 = 0 ∧ (State.created Config.defaultGlyph).read 0xFFF = 0 := by decide
/-- R35: and so are the registers, the display, the keys and the timers, at the ends of their ranges. -/
theorem test_created_registers_zero :
    (State.created Config.defaultGlyph).getV 0xF = 0 ∧ (State.created Config.defaultGlyph).getKey 0xF = false ∧
    (State.created Config.defaultGlyph).cell 2047 = false ∧ (State.created Config.defaultGlyph).pc = 0 := by decide

/-! ### The cycle -/

/-- T117. -/
theorem test_fetch_at_0FFE :
    gives (step ((State.reset.setPc 0xFFE).withFetchWord 16 0x6A11)) (fun t => t.getV 0xA == 0x11 && t.pc == 0x1000) = true := by
  decide
/-- T119. -/
theorem test_fetch_at_0FFF : faults (step (State.reset.setPc 0xFFF)) (.outOfBounds 0xFFF) = true := by decide
/-- T120: the second cycle, at the odd address 0203. -/
theorem test_fetch_at_odd_pc :
    gives (step ((State.reset.setPc 0x203).withFetchWord 16 0x6A55)) (fun t => t.getV 0xA == 0x55 && t.pc == 0x205) = true := by
  decide
/-- T50, S11. -/
theorem test_unknown_word_is_reported :
    gives (step (word 0x8AB8)) (fun t => t.pc == 0x202 && t.result == some (.reported (.unknownOpcode 0x8AB8))) = true := by
  decide

/-! ### Control flow -/

/-- T1: 0ABC was pushed last. -/
theorem test_00EE_pops_newest :
    gives (step ((word 0x00EE).setStack [0xABC, 0x206])) (fun t => t.pc == 0xABC && t.stack == [0x206]) = true := by decide
/-- T2. -/
theorem test_00EE_empty :
    gives (step (word 0x00EE)) (fun t => t.pc == 0x202 && t.stack == [] && t.result == some (.reported .stackUnderflow)) = true := by
  decide
/-- T4: an odd target. -/
theorem test_1nnn_odd_target : gives (step (word 0x1201)) (pcIs 0x201) = true := by decide
/-- T5. -/
theorem test_2nnn_pushes_next :
    gives (step ((State.reset.setPc 0xFFC).withFetchWord 16 0x2ABC)) (fun t => t.pc == 0xABC && t.stack == [0xFFE]) = true := by
  decide
/-- T6. -/
theorem test_2nnn_full :
    gives (step ((word 0x2300).setStack (List.replicate 16 0x202))) (fun t =>
      t.pc == 0x202 && t.stack.length == 16 && t.result == some (.reported .stackOverflow)) = true := by decide
/-- T7, T8. -/
theorem test_3xnn_skips :
    gives (step ((word 0x3A3C).setV 0xA 0x3C)) (pcIs 0x204) = true ∧
    gives (step ((word 0x3A3C).setV 0xA 0x3D)) (pcIs 0x202) = true := by decide
/-- T9, T10. -/
theorem test_4xnn_skips :
    gives (step ((word 0x4A3C).setV 0xA 0x3C)) (pcIs 0x202) = true ∧
    gives (step ((word 0x4A3C).setV 0xA 0x3D)) (pcIs 0x204) = true := by decide
/-- T11, T12: also with a nonzero low nibble. -/
theorem test_5xy0_skips :
    gives (step (((word 0x5AB0).setV 0xA 7).setV 0xB 7)) (pcIs 0x204) = true ∧
    gives (step (((word 0x5AB7).setV 0xA 7).setV 0xB 8)) (pcIs 0x202) = true := by decide
/-- T15, T16. -/
theorem test_9xy0_skips :
    gives (step (((word 0x9AB1).setV 0xA 7).setV 0xB 8)) (pcIs 0x204) = true ∧
    gives (step ((word 0x9330).setV 3 9)) (pcIs 0x202) = true := by decide
/-- T18: the sum is not masked. -/
theorem test_Bnnn_unmasked : gives (step ((word 0xBFFF).setV 0 0xFF)) (pcIs 0x10FE) = true := by decide

/-! ### Registers -/

/-- S3, T20: VF as a plain register. -/
theorem test_6xnn_loads :
    gives (step (word 0x6A3C)) (fun t => t.getV 0xA == 0x3C && t.pc == 0x202) = true ∧
    gives (step ((word 0x6F80).setV 0xF 1)) (fun t => t.getV 0xF == 0x80) = true := by decide
/-- S4: no carry. -/
theorem test_7xnn_wraps :
    gives (step (((word 0x7A01).setV 0xA 0xFF).setV 0xF 7)) (fun t => t.getV 0xA == 0 && t.getV 0xF == 7) = true := by decide
/-- T23. -/
theorem test_8xy0_copies :
    gives (step ((((word 0x8AB0).setV 0xA 1).setV 0xB 0x99).setV 0xF 1)) (fun t =>
      t.getV 0xA == 0x99 && t.getV 0xB == 0x99 && t.getV 0xF == 1) = true := by decide
/-- T24. -/
theorem test_8xy1_ors :
    gives (step ((((word 0x8AB1).setV 0xA 0xF0).setV 0xB 0x0F).setV 0xF 1)) (fun t =>
      t.getV 0xA == 0xFF && t.getV 0xF == 1) = true := by decide
/-- T25. -/
theorem test_8xy2_ands :
    gives (step ((((word 0x8AB2).setV 0xA 0xF3).setV 0xB 0x3F).setV 0xF 1)) (fun t =>
      t.getV 0xA == 0x33 && t.getV 0xF == 1) = true := by decide
/-- T26. -/
theorem test_8xy3_xors :
    gives (step ((((word 0x8AB3).setV 0xA 0xFF).setV 0xB 0x0F).setV 0xF 1)) (fun t =>
      t.getV 0xA == 0xF0 && t.getV 0xF == 1) = true := by decide
/-- T28. -/
theorem test_8xy4_carries :
    gives (step (((word 0x8AB4).setV 0xA 0xFF).setV 0xB 1)) (fun t => t.getV 0xA == 0 && t.getV 0xF == 1) = true := by decide
/-- T30: the flag wins where the destination is VF. -/
theorem test_8xy4_into_VF :
    gives (step (((word 0x8FB4).setV 0xF 0x10).setV 0xB 0x20)) (fun t => t.getV 0xF == 0) = true := by decide
/-- S6. -/
theorem test_8xy5_borrows :
    gives (step (((word 0x8AB5).setV 0xA 5).setV 0xB 9)) (fun t => t.getV 0xA == 0xFC && t.getV 0xF == 0) = true := by decide
/-- T36: VF as the second operand is read before the flag is written. -/
theorem test_8xy5_from_VF :
    gives (step (((word 0x8AF5).setV 0xA 9).setV 0xF 5)) (fun t => t.getV 0xA == 4 && t.getV 0xF == 1) = true := by decide
/-- T38: the other register is not read. -/
theorem test_8xy6_shifts_in_place :
    gives (step (((word 0x8AB6).setV 0xA 5).setV 0xB 0xFF)) (fun t =>
      t.getV 0xA == 2 && t.getV 0xF == 1 && t.getV 0xB == 0xFF) = true := by decide
/-- T41. -/
theorem test_8xy6_of_VF : gives (step ((word 0x8FB6).setV 0xF 2)) (fun t => t.getV 0xF == 0) = true := by decide
/-- T43. -/
theorem test_8xy7_borrows :
    gives (step (((word 0x8AB7).setV 0xA 9).setV 0xB 5)) (fun t => t.getV 0xA == 0xFC && t.getV 0xF == 0) = true := by decide
/-- T44: equality is no borrow. -/
theorem test_8xy7_equal :
    gives (step (((word 0x8AB7).setV 0xA 7).setV 0xB 7)) (fun t => t.getV 0xA == 0 && t.getV 0xF == 1) = true := by decide
/-- T46. -/
theorem test_8xyE_shifts_in_place :
    gives (step (((word 0x8ABE).setV 0xA 0x81).setV 0xB 0xFF)) (fun t => t.getV 0xA == 2 && t.getV 0xF == 1) = true := by decide
/-- T49. -/
theorem test_8xyE_of_VF : gives (step ((word 0x8FBE).setV 0xF 0x7F)) (fun t => t.getV 0xF == 0) = true := by decide
/-- T52: the random byte is A7. -/
theorem test_Cxnn_masks :
    gives (step ((word 0xCA0F).setInbox [.cycle 0xA7])) (fun t => t.getV 0xA == 7 && t.inbox == []) = true := by decide

/-! ### Index register and memory -/

/-- T56. -/
theorem test_Annn_loads : gives (step (word 0xAFFF)) (fun t => t.I == 0xFFF && t.pc == 0x202) = true := by decide
/-- T59: no overflow flag. -/
theorem test_Fx1E_wraps :
    gives (step ((((word 0xFA1E).setI 0xFFF).setV 0xA 0xFF).setV 0xF 7)) (fun t => t.I == 0x0FE && t.getV 0xF == 7) = true := by
  decide
/-- T62: the whole byte is multiplied. -/
theorem test_Fx29_whole_byte : gives (step ((word 0xFA29).setV 0xA 0x1A)) (fun t => t.I == 0x082) = true := by decide
/-- T68: the third digit wraps to address 0. -/
theorem test_Fx33_wraps :
    gives (step (((word 0xFA33).setI 0xFFE).setV 0xA 0xC3)) (fun t =>
      t.read 0xFFE == 1 && t.read 0xFFF == 9 && t.read 0 == 5 && t.I == 0xFFE) = true := by decide
/-- T66: 0 is stored where the first digits are 0. -/
theorem test_Fx33_leading_zeros :
    gives (step (((((word 0xFA33).setI 0x300).setV 0xA 7).store 0x300 9).store 0x301 9)) (fun t =>
      t.read 0x300 == 0 && t.read 0x301 == 0 && t.read 0x302 == 7) = true := by decide
/-- T69: five registers are set and four stored; `I` stays. -/
theorem test_Fx55_stores :
    gives (step (((((((word 0xF355).setI 0x400).setV 0 0x11).setV 1 0x22).setV 2 0x33).setV 3 0x44).setV 4 0x55)) (fun t =>
      t.read 0x400 == 0x11 && t.read 0x403 == 0x44 && t.read 0x404 == 0 && t.I == 0x400) = true := by decide
/-- T71. -/
theorem test_Fx55_wraps :
    gives (step ((((word 0xF155).setI 0xFFF).setV 0 0xAA).setV 1 0xBB)) (fun t =>
      t.read 0xFFF == 0xAA && t.read 0 == 0xBB) = true := by decide
/-- T73: the register above the last is not loaded. -/
theorem test_Fx65_loads :
    gives (step (((((word 0xF265).setI 0x400).store 0x400 1).store 0x402 3).setV 3 0x77)) (fun t =>
      t.getV 0 == 1 && t.getV 2 == 3 && t.getV 3 == 0x77 && t.I == 0x400) = true := by decide
/-- T74: the second byte is GLYPH[0]. -/
theorem test_Fx65_wraps :
    gives (step (((word 0xF165).setI 0xFFF).store 0xFFF 0x5A)) (fun t =>
      t.getV 0 == 0x5A && t.getV 1 == t.glyph[0]) = true := by decide

/-! ### Display -/

/-- S7, T76: eight cells, four of them wrapped to column 0. -/
theorem test_Dxyn_wraps_columns :
    gives (step ((((word 0xD011).setV 0 60).setI 0x300).store 0x300 0xFF)) (fun t =>
      t.cell 59 == false && t.cell 60 && t.cell 63 && t.cell 0 && t.cell 3 && t.cell 4 == false && t.cell 64 == false &&
      t.getV 0xF == 0) = true := by decide
/-- T84: a collision in the second row counts; cell (7, 1) is cell 71. -/
theorem test_Dxyn_collision :
    gives (step (((((word 0xD012).setI 0x300).store 0x300 0xF0).store 0x301 0x0F).setFb (Pixels.toggle Pixels.allOff 71)))
      (fun t => t.cell 0 && t.cell 3 && t.cell 4 == false && t.cell 70 && t.cell 71 == false && t.getV 0xF == 1) = true := by decide
/-- T89: cells (0,0) and (63,31). -/
theorem test_00E0_clears :
    gives (step (((word 0x00E0).setV 0xF 1).setFb (Pixels.toggle (Pixels.toggle Pixels.allOff 0) 2047))) (fun t =>
      t.cell 0 == false && t.cell 2047 == false && t.getV 0xF == 1 && t.pc == 0x202) = true := by decide

/-! ### Input and timers -/

/-- T90, T91. -/
theorem test_Ex9E_skips :
    gives (step (((word 0xEA9E).setV 0xA 7).setKey 7 true)) (pcIs 0x204) = true ∧
    gives (step (((word 0xEA9E).setV 0xA 7).setKey 8 true)) (pcIs 0x202) = true := by decide
/-- R181, R216: a value that is no key code. -/
theorem test_Ex9E_aborts : faults (step ((word 0xEA9E).setV 0xA 0x10)) (.keyIndex 0x10) = true := by decide
/-- T92, and R182 for a released key. -/
theorem test_ExA1_skips :
    gives (step (((word 0xEAA1).setV 0xA 7).setKey 7 true)) (pcIs 0x202) = true ∧
    gives (step ((word 0xEAA1).setV 0xA 0xF)) (pcIs 0x204) = true := by decide
theorem test_ExA1_aborts : faults (step ((word 0xEAA1).setV 0xA 0x10)) (.keyIndex 0x10) = true := by decide
/-- S9, first phase: a held key does not count. -/
theorem test_Fx0A_waits :
    gives (step ((word 0xF50A).setKey 7 true)) (fun t => t.exec == .awaitingKey 5 && t.pc == 0x200 && t.getV 5 == 0) = true := by
  decide
/-- S9, second phase: a press transition latches, a repeated press does not. -/
theorem test_key_press_latches :
    gives (key 7 true (State.reset.setExec (.awaitingKey 5))) (fun t =>
      t.getV 5 == 7 && t.exec == .resuming && t.pc == 0x200 && t.getKey 7) = true ∧
    gives (key 7 true ((State.reset.setExec (.awaitingKey 5)).setKey 7 true)) (fun t =>
      t.getV 5 == 0 && t.exec == .awaitingKey 5) = true := by decide
/-- S9, third phase. -/
theorem test_cycle_retires :
    gives (cycle 0 (State.reset.setExec .resuming)) (fun t =>
      t.pc == 0x202 && t.exec == .running && t.result == some .retired) = true := by decide
/-- T109. -/
theorem test_Fx07_reads : gives (step ((word 0xFA07).setDT 0x2A)) (fun t => t.getV 0xA == 0x2A && t.DT == 0x2A) = true := by decide
/-- T110. -/
theorem test_Fx15_sets : gives (step ((word 0xFA15).setV 0xA 0x3C)) (fun t => t.DT == 0x3C && t.ST == 0) = true := by decide
/-- T111: the tone becomes true. -/
theorem test_Fx18_sets :
    gives (step (((word 0xFA18).setV 0xA 5).setDT 9)) (fun t => t.ST == 5 && t.DT == 9 && t.tone) = true := by decide
/-- T107, S10: a Tick counts during a wait and stops at 0. -/
theorem test_tick_counts_during_a_wait :
    gives (tick (((State.reset.setExec (.awaitingKey 5)).setDT 2).setST 1)) (fun t =>
      t.DT == 1 && t.ST == 0 && t.exec == .awaitingKey 5) = true ∧
    gives (tick State.reset) (fun t => t.DT == 0 && t.ST == 0) = true := by decide
/-- A step takes the first event of the inbox. -/
theorem test_step_takes_the_inbox :
    gives (step ((State.reset.setDT 5).setInbox [.tick, .key 3 true])) (fun t =>
      t.DT == 4 && t.getKey 3 == false && t.inbox == [.key 3 true]) = true := by decide

/-! ### Witnesses: states and operands that meet the hypotheses of each statement that has some, at the ends of their ranges -/

/-- A state that waits for a key into V5. -/
def waiting : State := State.reset.setExec (.awaitingKey 5)

/-- A one-row sprite of one lit bit, bit 7, at 0x300; V0 and V1 are 0, so it lights cell 0. -/
def dot : State := (State.reset.setI 0x300).store 0x300 0x80

/-- A one-row sprite of one lit bit, bit 0, at 0x300, with its origin at column 56, row 31: it lights cell 2047. -/
def lastDot : State := ((((State.reset.setI 0x300).store 0x300 0x01).setV 0 56).setV 1 31)

theorem test_witness_LoadResets :
    ([] : List Byte).length ≤ 0xE00 ∧ (List.replicate 0xE00 (0xFF : Byte)).length ≤ 0xE00 := by
  simp only [List.length_replicate]; decide
theorem test_witness_LoadTooLong : 0xE00 < (List.replicate 0xE01 (0xFF : Byte)).length := by
  simp only [List.length_replicate]; decide
theorem test_witness_CreatedMachine : (State.created Config.defaultGlyph).loaded = false := rfl
theorem test_witness_EncodeOfDecode :
    decode 0x5ABF = .ok (.op5xy0 0xA 0xB 0xF) ∧ decode 0xFF65 = .ok (.opFx65 0xF) := by decide
theorem test_witness_DecoderAgrees :
    (0x5ABF : Word) &&& (Instr.op5xy0 0 0 0).row.mask = (Instr.op5xy0 0 0 0).row.pattern ∧
    decode 0x00E1 = .error (.unknownOpcode 0x00E1) := by decide
theorem test_witness_Fetch : (State.reset.setPc 0xFFE).pc.toNat < 0xFFF ∧ 0xFFF ≤ (State.reset.setPc 0xFFF).pc.toNat := by decide
theorem test_witness_StepRuns :
    (word 0x6A3C).loaded = true ∧ (word 0x6A3C).exec = .running ∧ (word 0x6A3C).fetch = .ok 0x6A3C ∧
    decode 0x6A3C = .ok (.op6xnn 0xA 0x3C) ∧ (word 0x6A3C).inbox = [] ∧
    ((word 0x6A3C).setInbox [.cycle 0xA7]).fetch = .ok 0x6A3C ∧
    ((word 0x6A3C).setInbox [.cycle 0xA7]).inbox = .cycle 0xA7 :: [] := by decide
theorem test_witness_StepTakes : (State.reset.setInbox [.tick, .load []]).inbox = .tick :: [.load []] := rfl
theorem test_witness_UnknownWord :
    (word 0x8AB8).loaded = true ∧ (word 0x8AB8).exec = .running ∧ (word 0x8AB8).fetch = .ok 0x8AB8 ∧
    decode 0x8AB8 = .error (.unknownOpcode 0x8AB8) := by decide
theorem test_witness_Idle : (waiting.setPc 0xFFF).blocked := ⟨rfl, 5, rfl⟩
theorem test_witness_Retiring :
    (State.reset.setExec .resuming).loaded = true ∧ (State.reset.setExec .resuming).exec = .resuming := by decide
theorem test_witness_KeyWait :
    (word 0xF50A).loaded = true ∧ (word 0xF50A).exec = .running ∧ (word 0xF50A).fetch = .ok 0xF50A ∧
    decode 0xF50A = .ok (.opFx0A 5) ∧ (word 0xF50A).getKey 0xF = false := by decide

/-- The clauses for a Cycle. -/
theorem test_witness_ExecutionState_cycle :
    (∃ t, event (.cycle 0) (word 0xF50A) = .next t) ∧ (word 0xF50A).fetch = .ok 0xF50A ∧
    (∃ t, event (.cycle 0) (word 0x6A3C) = .next t) ∧
    (∀ w x, (word 0x6A3C).fetch = .ok w → decode w ≠ .ok (.opFx0A x)) ∧
    (∃ t, event (.cycle 0) waiting = .next t) ∧ ∃ t, event (.cycle 0) (State.reset.setExec .resuming) = .next t := by
  refine ⟨⟨_, rfl⟩, rfl, ⟨_, rfl⟩, ?_, ⟨_, rfl⟩, ⟨_, rfl⟩⟩
  intro w x h
  have e : (word 0x6A3C).fetch = .ok 0x6A3C := rfl
  rw [e] at h
  cases h
  have d : decode 0x6A3C = .ok (.op6xnn 0xA 0x3C) := rfl
  rw [d]
  simp

/-- The clauses for a Tick, a Key and a Load. -/
theorem test_witness_ExecutionState_others :
    (∃ t, event .tick waiting = .next t) ∧ (∃ t, event (.key 7 false) waiting = .next t) ∧
    (∃ t, event (.key 7 true) (waiting.setKey 7 true) = .next t) ∧ (waiting.setKey 7 true).getKey 7 = true ∧
    (∃ t, event (.key 7 true) waiting = .next t) ∧ waiting.getKey 7 = false ∧ waiting.exec = .awaitingKey 5 ∧
    (∃ t, event (.load []) waiting = .next t) ∧ ∃ t, event (.load (List.replicate 0xE01 0)) waiting = .next t := by
  refine ⟨⟨_, rfl⟩, ⟨_, rfl⟩, ⟨_, rfl⟩, rfl, ⟨_, rfl⟩, rfl, rfl, ⟨_, rfl⟩, ?_⟩
  rcases load_cases (s := waiting) (List.replicate 0xE01 0) with ⟨_, h⟩ | ⟨_, h⟩ <;> exact ⟨_, h⟩

theorem test_witness_Tick_Timers_and_Key : State.reset.loaded = true ∧ waiting.loaded = true := ⟨rfl, rfl⟩
theorem test_witness_Key_clauses :
    (waiting.exec = .awaitingKey 5 ∧ waiting.getKey 0xF = false) ∧ (waiting.setKey 0xF true).getKey 0xF = true ∧
    ∀ x, State.reset.exec ≠ .awaitingKey x := ⟨⟨rfl, rfl⟩, rfl, fun x => by simp [State.reset]⟩

theorem dot_lights : dot.spriteLights (dot.getV 0) (dot.getV 1) 1 0 :=
  ⟨0, by decide, 0, by decide, by decide, by decide⟩
theorem lastDot_lights : lastDot.spriteLights (lastDot.getV 0) (lastDot.getV 1) 1 2047 :=
  ⟨0, by decide, 7, by decide, by decide, by decide⟩

/-- The clause of a collision, at the first cell and at the last. -/
theorem test_witness_Draw_collision :
    (dot.setFb (Pixels.toggle Pixels.allOff 0)).cell 0 = true ∧
    (dot.setFb (Pixels.toggle Pixels.allOff 0)).spriteLights (dot.getV 0) (dot.getV 1) 1 0 ∧
    (lastDot.setFb (Pixels.toggle Pixels.allOff 2047)).cell 2047 = true ∧
    (lastDot.setFb (Pixels.toggle Pixels.allOff 2047)).spriteLights (lastDot.getV 0) (lastDot.getV 1) 1 2047 :=
  ⟨by decide, dot_lights, by decide, lastDot_lights⟩
/-- The clause of no collision: the display is clear. -/
theorem test_witness_Draw_no_collision :
    ∀ i < 2048, dot.spriteLights (dot.getV 0) (dot.getV 1) 1 i → dot.cell i = false := by
  rintro i _ ⟨row, hr, col, hc, -, rfl⟩
  simp [dot, State.cell, Pixels.cell, Pixels.row, State.reset, State.store, State.setMem, State.setI]

/-- The first draw's state itself is a state with its display and the same sprite and origin. -/
theorem test_witness_DrawingTwice :
    ∃ t, exec (.opDxyn 0 1 1) dot = .next t ∧ (∀ a : Addr, t.read a = dot.read a) ∧ t.I = dot.I ∧
      t.getV 0 = dot.getV 0 ∧ t.getV 1 = dot.getV 1 := ⟨_, rfl, fun _ => rfl, rfl, by decide, by decide⟩
/-- The clauses for the second draw: a lit cell that was off before the first, and none. -/
theorem test_witness_DrawingTwice_clauses :
    (dot.spriteLights (dot.getV 0) (dot.getV 1) 1 0 ∧ dot.cell 0 = false) ∧
    ∀ i < 2048, dot.spriteLights (dot.getV 0) (dot.getV 1) 0 i → dot.cell i = true :=
  ⟨⟨dot_lights, by decide⟩, fun i _ ⟨_, h, _⟩ => absurd h (Nat.not_lt_zero _)⟩

theorem test_witness_Return : (State.reset.setStack [0xABC]).stack = 0xABC :: [] ∧ State.reset.stack = [] := ⟨rfl, rfl⟩
theorem test_witness_Jump : (State.reset.setPc 0xFFF).pc.toNat = (0xFFF : Addr).toNat := rfl
theorem test_witness_Call :
    (State.reset.setStack (List.replicate 15 0x202)).stack.length < 16 ∧
    (State.reset.setStack (List.replicate 16 0x202)).stack.length = 16 := by decide
theorem test_witness_destination_not_VF : (0xE : Nibble) ≠ regVF ∧ (0 : Nibble) ≠ regVF := by decide
theorem test_witness_OnlyTheRandom :
    (∀ x nn, Instr.opEx9E 0 ≠ .opCxnn x nn) ∧ (∃ t, exec (.opEx9E 0) State.reset = .next t) ∧
    exec (.opEx9E 0) (State.reset.setV 0 0x10) = .fault (.keyIndex 0x10) := ⟨fun _ _ => by simp, ⟨_, rfl⟩, rfl⟩
theorem test_witness_FlagWriters :
    (Instr.op8xy4 0xF 0xF).writesFlag = true ∧ ∃ t, exec (.op8xy4 0xF 0xF) (State.reset.setV 0xF 0xFF) = .next t := ⟨rfl, ⟨_, rfl⟩⟩
/-- With `I = 0xFFE` the three digits go to 0xFFE, 0xFFF and 0x000. -/
theorem test_witness_Bcd :
    (1 : Addr) ≠ (State.reset.setI 0xFFE).dataAddr 0 ∧ (1 : Addr) ≠ (State.reset.setI 0xFFE).dataAddr 1 ∧
    (1 : Addr) ≠ (State.reset.setI 0xFFE).dataAddr 2 := by decide
theorem test_witness_StoreRegisters :
    (0xF : Nibble).toNat ≤ (0xF : Nibble).toNat ∧
    ∀ r : Nibble, r.toNat ≤ (1 : Nibble).toNat → (1 : Addr) ≠ (State.reset.setI 0xFFF).dataAddr r.toNat := by decide
theorem test_witness_LoadRegisters :
    (0 : Nibble).toNat ≤ (0 : Nibble).toNat ∧ (0 : Nibble).toNat < (1 : Nibble).toNat ∧
    (0xE : Nibble).toNat < (0xF : Nibble).toNat := by decide
/-- At reset, and with the last word of memory as the next instruction. -/
theorem test_witness_StoredCode :
    (State.reset.setI 0x202).pc.toNat + 2 < 0xFFF ∧ (State.reset.setI 0x202).I.toNat = (State.reset.setI 0x202).pc.toNat + 2 ∧
    ((State.reset.setPc 0xFFC).setI 0xFFE).pc.toNat + 2 < 0xFFF ∧
    ((State.reset.setPc 0xFFC).setI 0xFFE).I.toNat = ((State.reset.setPc 0xFFC).setI 0xFFE).pc.toNat + 2 := by decide
theorem test_witness_KeySkips :
    (State.reset.setV 3 0xF).getV 3 = (0xF : Nibble).setWidth 8 ∧ 0x0F < ((State.reset.setV 3 0x10).getV 3).toNat := by decide
/-- For the three frames of exec: a storing instruction, an untouched register and an untouched byte. -/
theorem test_witness_instruction_frames :
    (∃ t, exec (.opFx33 0) State.reset = .next t) ∧ (Instr.opFx33 0).writesReg 0 = false ∧
    (3 : Addr) ∉ (Instr.opFx33 0).storesTo State.reset := ⟨⟨_, rfl⟩, by decide, by decide⟩
theorem test_witness_EventsChange :
    (∃ t, event (.cycle 0) (word 0x6A3C) = .next t) ∧ (∃ t, event .tick State.reset = .next t) ∧
    (∃ t, event (.key 0 true) waiting = .next t) ∧ ∃ t, event (.load [0x12]) State.reset = .next t :=
  ⟨⟨_, rfl⟩, ⟨_, rfl⟩, ⟨_, rfl⟩, ⟨_, rfl⟩⟩
/-- The two aborting conditions, each reached by a step. -/
theorem test_witness_StepFaults :
    ((State.reset.setPc 0xFFF).cycleNext ∧ (State.reset.setPc 0xFFF).faulted) ∧
    (((word 0xE09E).setV 0 0x10).cycleNext ∧ ((word 0xE09E).setV 0 0x10).faulted) :=
  ⟨⟨.inl rfl, rfl, rfl, .inl (by decide)⟩,
   ⟨.inl rfl, rfl, rfl, .inr ⟨0xE09E, 0, by decide, .inl (by decide), by decide⟩⟩⟩
theorem test_witness_CycleReturns :
    (∃ t, event (.cycle 0) waiting = .next t) ∧ (∃ t, event (.cycle 0) (State.reset.setExec .resuming) = .next t) ∧
    (∃ t, event (.cycle 0) (word 0x8AB8) = .next t) ∧
    (∃ t, event (.cycle 0) ((word 0x2300).setStack (List.replicate 16 0)) = .next t) ∧
    ((word 0x2300).setStack (List.replicate 16 0)).fetch = .ok 0x2300 ∧ decode 0x2300 = .ok (.op2nnn 0x300) ∧
    (∃ t, event (.cycle 0) (word 0x00EE) = .next t) ∧ (word 0x00EE).fetch = .ok 0x00EE ∧
    ∃ t, event (.cycle 0) (word 0x6A3C) = .next t :=
  ⟨⟨_, rfl⟩, ⟨_, rfl⟩, ⟨_, rfl⟩, ⟨_, rfl⟩, by decide, by decide, ⟨_, rfl⟩, by decide, ⟨_, rfl⟩⟩
theorem test_witness_FetchAbort :
    (State.reset.setPc 0xFFF).loaded = true ∧ (State.reset.setPc 0xFFF).exec = .running ∧
    0xFFF ≤ (State.reset.setPc 0xFFF).pc.toNat ∧
    ∀ e ∈ [Event.cycle 0, .tick, .key 3 true], ∀ bytes, e ≠ .load bytes := ⟨rfl, rfl, by decide, by simp⟩
theorem test_witness_AbortedCycle :
    event (.cycle 0) ((word 0xE0A1).setV 0 0xFF) = .fault (.keyIndex 0xFF) ∧
    event (.cycle 0) (State.reset.setPc 0xFFFF) = .fault (.outOfBounds 0xFFFF) := ⟨rfl, rfl⟩
theorem test_witness_IdleLoop : (word 0x1200).idleLoop := ⟨rfl, rfl, 0x1200, 0x200, by decide, by decide, by decide⟩
theorem test_witness_EveryStep : (word 0x6A3C).Inv ∧ ∃ t, step (word 0x6A3C) = .next t :=
  ⟨⟨by decide, by decide, by decide, by simp [word, State.withFetchWord, State.placeWord, State.readyToFetch, State.reset,
    State.setInbox, State.setExec, State.setLoaded, State.store, State.setMem], by decide,
    fun h => absurd rfl h⟩, ⟨_, rfl⟩⟩

end Sys2Proof.Tests
end

/-! SUPPORT. What an instruction and a Cycle can answer, said once, and the frames of the instructions and the events
(00_scope.md R7, R8, R12; 10_state.md R37), with the statements of 00_scope.md that they settle. -/

namespace Sys2Proof.Machine

section Answers

variable {s t u : State}

/-! ### The arms of `exec` that branch or leave `pc` -/

/-- `00EE` pops and jumps, or reports the empty stack (R110). -/
theorem exec_op00EE_cases (s : State) :
    (∃ a rest, s.stack = a :: rest ∧ exec .op00EE s = (s.setStack rest).finishAt a) ∨
    (s.stack = [] ∧ exec .op00EE s = s.report .stackUnderflow) := by
  simp only [exec, exec00EE]
  cases h : s.stack with
  | nil => exact .inr ⟨rfl, by rw [s.pop_nil h]⟩
  | cons a rest => exact .inl ⟨a, rest, rfl, by rw [s.pop_cons h]⟩

/-- `2nnn` pushes and jumps, or reports the full stack (R112). -/
theorem exec_op2nnn_cases (nnn : Addr) (s : State) :
    (s.stack.length < 16 ∧
      exec (.op2nnn nnn) s = (s.setStack ((s.pc + 2) :: s.stack)).finishAt (addrWord nnn)) ∨
    (16 ≤ s.stack.length ∧ exec (.op2nnn nnn) s = s.report .stackOverflow) := by
  simp only [exec, exec2nnn]
  rcases Nat.lt_or_ge s.stack.length 16 with h | h
  · exact .inl ⟨h, by rw [s.push_of_lt _ h]⟩
  · exact .inr ⟨h, by rw [s.push_of_full _ h]⟩

/-- `Ex9E` skips on a key code and aborts on any other value (R181). -/
theorem exec_opEx9E_cases (x : Nibble) (s : State) :
    ((s.getV x).toNat ≤ 0x0F ∧ exec (.opEx9E x) s = s.skipIf (s.getKey ((s.getV x).setWidth 4))) ∨
    (0x0F < (s.getV x).toNat ∧ exec (.opEx9E x) s = .fault (.keyIndex (s.getV x))) := by
  simp only [exec, execEx9E]
  rcases keyOperand_cases (s.getV x) with ⟨h, hk⟩ | ⟨h, hk⟩
  · exact .inl ⟨h, by rw [hk]⟩
  · exact .inr ⟨h, by rw [hk, abort]⟩

/-- `ExA1` skips on a key code and aborts on any other value (R182). -/
theorem exec_opExA1_cases (x : Nibble) (s : State) :
    ((s.getV x).toNat ≤ 0x0F ∧ exec (.opExA1 x) s = s.skipIf (!s.getKey ((s.getV x).setWidth 4))) ∨
    (0x0F < (s.getV x).toNat ∧ exec (.opExA1 x) s = .fault (.keyIndex (s.getV x))) := by
  simp only [exec, execExA1]
  rcases keyOperand_cases (s.getV x) with ⟨h, hk⟩ | ⟨h, hk⟩
  · exact .inl ⟨h, by rw [hk]⟩
  · exact .inr ⟨h, by rw [hk, abort]⟩

/-- `Fx0A` enters the wait and leaves `pc` where it is (R183). -/
theorem exec_opFx0A (x : Nibble) (s : State) :
    exec (.opFx0A x) s = .next ((s.setExec (.awaitingKey x)).setResult (some .executed)) := rfl

/-! ### The faults of an instruction and of a Cycle -/

/-- The key skips on a value that is no key code are the only instructions that fault (R181, R182, R216). -/
theorem exec_fault_iff (i : Instr) (s : State) (f : Fault) :
    exec i s = .fault f ↔
      ∃ x, (i = .opEx9E x ∨ i = .opExA1 x) ∧ 0x0F < (s.getV x).toNat ∧ f = .keyIndex (s.getV x) := by
  constructor
  · intro h
    cases i with
    | opEx9E x =>
      rcases exec_opEx9E_cases x s with ⟨_, he⟩ | ⟨hv, he⟩ <;> rw [he] at h <;> cases h
      exact ⟨x, .inl rfl, hv, rfl⟩
    | opExA1 x =>
      rcases exec_opExA1_cases x s with ⟨_, he⟩ | ⟨hv, he⟩ <;> rw [he] at h <;> cases h
      exact ⟨x, .inr rfl, hv, rfl⟩
    | op00EE => rcases exec_op00EE_cases s with ⟨a, rest, _, he⟩ | ⟨_, he⟩ <;> rw [he] at h <;> cases h
    | op2nnn nnn => rcases exec_op2nnn_cases nnn s with ⟨_, he⟩ | ⟨_, he⟩ <;> rw [he] at h <;> cases h
    | _ => cases h
  · rintro ⟨x, rfl | rfl, hv, rfl⟩
    · exact ((exec_opEx9E_cases x s).resolve_left fun ⟨hle, _⟩ => by omega).2
    · exact ((exec_opExA1_cases x s).resolve_left fun ⟨hle, _⟩ => by omega).2

/-- A Cycle faults exactly where a loaded, running machine fetches at 0xFFF or above, or runs a key skip on a value that is no
key code (R215, R216). -/
theorem cycle_fault_iff (r : Byte) (s : State) (f : Fault) :
    cycle r s = .fault f ↔ s.loaded = true ∧ s.exec = .running ∧
      ((0xFFF ≤ s.pc.toNat ∧ f = .outOfBounds s.pc) ∨
       ∃ w x, s.fetch = .ok w ∧ (decode w = .ok (.opEx9E x) ∨ decode w = .ok (.opExA1 x)) ∧
         0x0F < (s.getV x).toNat ∧ f = .keyIndex (s.getV x)) := by
  constructor
  · intro h
    obtain ⟨hl, he, hpc | ⟨w, i, hf, hd, hx⟩⟩ := cycle_fault_cases h
    · exact ⟨hl, he, .inl hpc⟩
    · obtain ⟨x, rfl | rfl, hv, rfl⟩ := (exec_fault_iff i _ f).mp hx
      · exact ⟨hl, he, .inr ⟨w, x, hf, .inl hd, hv, rfl⟩⟩
      · exact ⟨hl, he, .inr ⟨w, x, hf, .inr hd, hv, rfl⟩⟩
  · rintro ⟨hl, he, ⟨hpc, rfl⟩ | ⟨w, x, hf, hd, hv, rfl⟩⟩
    · exact cycle_of_fetch_error r hl he (s.fetch_of_ge hpc)
    · rcases hd with hd | hd
      · rw [cycle_of_instr r hl he hf hd]
        exact (exec_fault_iff _ _ _).mpr ⟨x, .inl rfl, hv, rfl⟩
      · rw [cycle_of_instr r hl he hf hd]
        exact (exec_fault_iff _ _ _).mpr ⟨x, .inr rfl, hv, rfl⟩

/-! ### Frames of the ends of an instruction -/

/-- An instruction that ends with `finishAt` adds `pc` and the result to the frame of its effect. -/
theorem State.changesOnly_of_finishAt (ps : List Part) {a : Word} (h : u.finishAt a = .next t)
    (hu : s.changesOnly ps u) : s.changesOnly (ps ++ [.pc, .result]) t := by
  cases h
  exact State.changesOnly_end a _ (State.changesOnly_mono hu (by simp)) (by simp) (by simp)

/-- A reported condition changes `pc` and the result alone (R12, R97). -/
theorem State.changesOnly_of_report {c : Condition} (h : s.report c = .next t) :
    s.changesOnly [.pc, .result] t := by
  cases h
  exact State.changesOnly_end _ _ (State.changesOnly_refl _ s) (by simp) (by simp)

/-- A Load that succeeds leaves the model's own fields as they are, but for the result (R33, R34). -/
theorem State.changesOnly_afterLoad (bytes : List Byte) (s : State) :
    s.changesOnly ((Event.load bytes).writes s) (s.afterLoad bytes) := by
  intro p hp
  have own : p = .glyph ∨ p = .inbox ∨ p = .rand8 ∨ p = .draws := by
    cases p <;> simp_all [Event.writes]
  rcases own with rfl | rfl | rfl | rfl <;> rfl

/-! ### The frame of an instruction (R37) -/

/-- An instruction changes only what its row of the access matrix names. -/
theorem exec_changesOnly {i : Instr} (h : exec i s = .next t) : s.changesOnly i.writes t := by
  have own := State.changesOnly_refl (s := s)
  cases i with
  | op00E0 => exact State.changesOnly_of_finishAt [.fb] h (State.changesOnly_setFb _ (own _) (by simp))
  | op00EE =>
    rcases exec_op00EE_cases s with ⟨a, rest, _, he⟩ | ⟨_, he⟩ <;> rw [he] at h
    · exact State.changesOnly_of_finishAt [.stack] h (State.changesOnly_setStack _ (own _) (by simp))
    · exact State.changesOnly_mono (State.changesOnly_of_report h) (by simp [Instr.writes])
  | op2nnn nnn =>
    rcases exec_op2nnn_cases nnn s with ⟨_, he⟩ | ⟨_, he⟩ <;> rw [he] at h
    · exact State.changesOnly_of_finishAt [.stack] h (State.changesOnly_setStack _ (own _) (by simp))
    · exact State.changesOnly_mono (State.changesOnly_of_report h) (by simp [Instr.writes])
  | op1nnn _ | op3xnn _ _ | op4xnn _ _ | op5xy0 _ _ _ | op9xy0 _ _ _ | opBnnn _ =>
    exact State.changesOnly_of_finishAt [] h (own _)
  | opEx9E x =>
    rcases exec_opEx9E_cases x s with ⟨_, he⟩ | ⟨_, he⟩ <;> rw [he] at h
    · exact State.changesOnly_of_finishAt [] h (own _)
    · cases h
  | opExA1 x =>
    rcases exec_opExA1_cases x s with ⟨_, he⟩ | ⟨_, he⟩ <;> rw [he] at h
    · exact State.changesOnly_of_finishAt [] h (own _)
    · cases h
  | op6xnn _ _ | op7xnn _ _ | op8xy0 _ _ | op8xy1 _ _ | op8xy2 _ _ | op8xy3 _ _ | opCxnn _ _ | opFx07 _ =>
    exact State.changesOnly_of_finishAt [.V] h (State.changesOnly_setV _ _ (own _) (by simp))
  | op8xy4 _ _ | op8xy5 _ _ | op8xy6 _ _ | op8xy7 _ _ | op8xyE _ _ =>
    exact State.changesOnly_of_finishAt [.V] h (State.changesOnly_setVFlag _ _ _ (own _) (by simp))
  | opAnnn _ | opFx1E _ | opFx29 _ =>
    exact State.changesOnly_of_finishAt [.I] h (State.changesOnly_setI _ (own _) (by simp))
  | opDxyn _ _ _ =>
    exact State.changesOnly_of_finishAt [.V, .fb] h
      (State.changesOnly_setFlag _ (State.changesOnly_setFb _ (own _) (by simp)) (by simp))
  | opFx0A x =>
    rw [exec_opFx0A] at h
    cases h
    exact State.changesOnly_setResult _
      (State.changesOnly_setExec _ (own _) (by simp [Instr.writes])) (by simp [Instr.writes])
  | opFx15 _ => exact State.changesOnly_of_finishAt [.DT] h (State.changesOnly_setDT _ (own _) (by simp))
  | opFx18 _ => exact State.changesOnly_of_finishAt [.ST] h (State.changesOnly_setST _ (own _) (by simp))
  | opFx33 _ =>
    exact State.changesOnly_of_finishAt [.mem] h (State.changesOnly_store _ _
      (State.changesOnly_store _ _ (State.changesOnly_store _ _ (own _) (by simp)) (by simp)) (by simp))
  | opFx55 _ => exact State.changesOnly_of_finishAt [.mem] h (State.changesOnly_storeRegs _ (own _) (by simp))
  | opFx65 _ => exact State.changesOnly_of_finishAt [.V] h (State.changesOnly_loadRegs _ (own _) (by simp))

/-- An instruction changes only its destination register, and VF where it writes it as the flag (R22). An instruction that writes
no register leaves them all, by the access matrix. -/
theorem getV_of_exec {i : Instr} (h : exec i s = .next t) {r : Nibble} (hr : i.writesReg r = false) :
    t.getV r = s.getV r := by
  by_cases hV : .V ∈ i.writes
  · cases i with
    | op6xnn _ _ | op7xnn _ _ | op8xy0 _ _ | op8xy1 _ _ | op8xy2 _ _ | op8xy3 _ _ | opCxnn _ _ | opFx07 _ =>
      cases h
      exact State.getV_setV_ne s _ (by simpa [Instr.writesReg] using hr)
    | op8xy4 _ _ | op8xy5 _ _ | op8xy6 _ _ | op8xy7 _ _ | op8xyE _ _ =>
      cases h
      obtain ⟨hx, hF⟩ : r ≠ _ ∧ r ≠ regVF := by simpa [Instr.writesReg] using hr
      exact (State.getV_setVFlag s _ _ _ r).trans (by rw [if_neg hF, if_neg hx])
    | opDxyn _ _ _ =>
      cases h
      exact State.getV_setV_ne (s.setFb _) _ (by simpa [Instr.writesReg] using hr)
    | opFx65 x =>
      cases h
      have hx : ¬r.toNat < x.toNat + 1 := by
        simp only [Instr.writesReg, decide_eq_false_iff_not] at hr
        omega
      exact (s.getV_loadRegs (x.toNat + 1) (by omega) r).trans (if_neg hx)
    | _ => simp [Instr.writes] at hV
  · exact exec_changesOnly h .V hV r

/-- An instruction changes only the bytes it stores to (R53). An instruction that does not write memory leaves it, by the access
matrix. -/
theorem read_of_exec {i : Instr} (h : exec i s = .next t) {a : Addr} (ha : a ∉ i.storesTo s) :
    t.read a = s.read a := by
  by_cases hm : .mem ∈ i.writes
  · cases i with
    | opFx33 x =>
      cases h
      obtain ⟨h0, h1, h2⟩ : a ≠ s.dataAddr 0 ∧ a ≠ s.dataAddr 1 ∧ a ≠ s.dataAddr 2 := by
        simpa [Instr.storesTo] using ha
      simp [State.read_store, h0, h1, h2]
    | opFx55 x =>
      cases h
      refine (s.read_storeRegs (x.toNat + 1) (by omega) a).1 fun j hj hja => ha ?_
      exact List.mem_map.mpr ⟨j, List.mem_range.mpr hj, hja.symm⟩
    | _ => simp [Instr.writes] at hm
  · exact exec_changesOnly h .mem hm a

/-! ### The frames of the events (R7) -/

/-- A Cycle changes only what its phase, or the instruction it fetched, names. -/
theorem cycle_changesOnly {r : Byte} (h : cycle r s = .next t) : s.changesOnly s.cycleWrites t := by
  obtain ⟨_, ⟨x, he, rfl⟩ | ⟨he, rfl⟩ | ⟨he, w, hf, ⟨⟨e, hd⟩, rfl⟩ | ⟨i, hd, hx⟩⟩⟩ := cycle_next_cases h
  · rw [show s.cycleWrites = [.result] by simp [State.cycleWrites, he]]
    exact State.changesOnly_setResult _ (State.changesOnly_refl _ s) (by simp)
  · rw [show s.cycleWrites = [.pc, .exec, .result] by simp [State.cycleWrites, he]]
    exact State.changesOnly_setResult _ (State.changesOnly_setExec _
      (State.changesOnly_setPc _ (State.changesOnly_refl _ s) (by simp)) (by simp)) (by simp)
  · rw [show s.cycleWrites = [.pc, .result] by simp [State.cycleWrites, he, hf, hd]]
    exact State.changesOnly_of_report (State.report_eq s _)
  · rw [show s.cycleWrites = .rand8 :: i.writes by simp [State.cycleWrites, he, hf, hd]]
    exact State.changesOnly_trans (State.changesOnly_setRand8 r (State.changesOnly_refl _ s) (by simp))
      (State.changesOnly_mono (exec_changesOnly hx) (by simp))

/-- A Tick changes the timers and the result alone (R200). -/
theorem tick_changesOnly (h : tick s = .next t) : s.changesOnly [.DT, .ST, .result] t := by
  cases hl : s.loaded with
  | false => simp [tick, hl] at h
  | true =>
    rw [tick_of_loaded hl] at h
    cases h
    exact State.changesOnly_setResult _ (State.changesOnly_setST _
      (State.changesOnly_setDT _ (State.changesOnly_refl _ s) (by simp)) (by simp)) (by simp)

/-- A Key changes its slot and, where it ends a wait, the waiting register and the execution state (R180, R184). -/
theorem key_changesOnly {code : Nibble} {pressed : Bool} (h : key code pressed s = .next t) :
    s.changesOnly [.V, .keys, .exec, .result] t := by
  cases hl : s.loaded with
  | false => simp [key, hl] at h
  | true =>
    have slot : s.changesOnly [.V, .keys, .exec, .result] ((s.setKey code pressed).setResult none) :=
      State.changesOnly_setResult _ (State.changesOnly_setKey _ _ (State.changesOnly_refl _ s) (by simp)) (by simp)
    obtain ⟨x, _, _, _, hk⟩ | ⟨_, hk⟩ := key_of_loaded code pressed hl <;> rw [hk] at h <;> cases h
    · exact State.changesOnly_setExec _ (State.changesOnly_setV _ _ slot (by simp)) (by simp)
    · exact slot

/-- A Load changes everything but the model's own fields, or the result alone (R240, R241). -/
theorem load_changesOnly {bytes : List Byte} (h : load bytes s = .next t) :
    s.changesOnly ((Event.load bytes).writes s) t := by
  obtain ⟨_, hL⟩ | ⟨_, hL⟩ := load_cases (s := s) bytes <;> rw [hL] at h <;> cases h
  · exact State.changesOnly_setResult _ (State.changesOnly_refl _ s) (by simp [Event.writes])
  · exact State.changesOnly_afterLoad bytes s

end Answers

/-! ### The statements of 00_scope.md -/

/-- Settles O47: the case split is over the instructions, each effect a chain of updates with its own frame. -/
theorem instructionsChangeOnlyWhatTheMatrixNames : Obligations.InstructionsChangeOnlyWhatTheMatrixNames :=
  fun _ _ _ h => exec_changesOnly h

/-- Settles O48, from the access matrix for the instructions that write no register. -/
theorem instructionsChangeOnlyTheirRegisters : Obligations.InstructionsChangeOnlyTheirRegisters :=
  fun _ _ _ h _ hr => getV_of_exec h hr

/-- Settles O49, from the access matrix for the instructions that do not write memory. -/
theorem instructionsChangeOnlyTheBytesTheyStoreTo : Obligations.InstructionsChangeOnlyTheBytesTheyStoreTo :=
  fun _ _ _ h _ ha => read_of_exec h ha

/-- Settles O50, one frame for each event. -/
theorem eventsChangeOnlyWhatTheirRulesName : Obligations.EventsChangeOnlyWhatTheirRulesName := by
  intro e s t h
  cases e with
  | cycle r => exact cycle_changesOnly h
  | tick => exact tick_changesOnly h
  | key code pressed => exact key_changesOnly h
  | load bytes => exact load_changesOnly h

/-- Settles O54: the condition of a fault reads neither the random byte nor the result, the one field that differs. -/
theorem abortedCycleChangesNothingAndRecurs : Obligations.AbortedCycleChangesNothingAndRecurs := by
  intro s r f h
  have seen : deliver (.cycle r) s = s.setResult (some (.aborted f)) := by simp only [deliver, h]
  rw [seen]
  refine ⟨State.setResult_result s _, State.changesOnly_setResult _ (State.changesOnly_refl _ s) (by simp), fun r' => ?_⟩
  exact (cycle_fault_iff r' _ f).mpr ((cycle_fault_iff r s f).mp h)

/-- Settles O11, by the cases of a step. -/
theorem stepTakesTheNextEvent : Obligations.StepTakesTheNextEvent := by
  intro s e rest h
  obtain ⟨hn, _⟩ | ⟨e', rest', hc, hs⟩ := step_cases s
  · rw [h] at hn
    cases hn
  · rw [h] at hc
    cases hc
    exact hs

end Sys2Proof.Machine

/-! SUPPORT. The statements of 10_state.md: the values of the created, the loaded and the reset state (R34, R35), VF as a flag
(R22), and the invariant of the state, which reset meets and every step keeps (R23, R25, R26, R51). -/

namespace Sys2Proof.Machine

section StateRules

variable {s t u : State}

/-! ### The invariant under the updates -/

/-- The invariant speaks of memory, the glyph table, `I`, the stack, `pc` and the execution state, and of nothing else. -/
theorem State.Inv.of_same (h : s.Inv)
    (e : (t.mem, t.glyph, t.I, t.stack, t.pc, t.exec) = (s.mem, s.glyph, s.I, s.stack, s.pc, s.exec)) : t.Inv := by
  simp only [Prod.mk.injEq] at e
  obtain ⟨hm, hg, hI, hst, hpc, hx⟩ := e
  constructor
  · rw [hg, hm]; exact h.mem_wf
  · rw [hI]; exact h.index
  · rw [hst]; exact h.depth
  · rw [hst]; exact h.entries
  · rw [hpc]; exact h.pc_le
  · rw [hx, hpc]; exact h.suspended

theorem State.Inv.store (h : s.Inv) (a : Addr) (v : Byte) : (s.store a v).Inv :=
  { h with mem_wf := s.wf_store a v h.mem_wf }

theorem State.Inv.storeRegs (h : s.Inv) (k : Nat) : (s.storeRegs k).Inv := by
  induction k with
  | zero => exact h
  | succ k ih => exact ih.store _ _

theorem State.Inv.loadRegs (h : s.Inv) (k : Nat) : (s.loadRegs k).Inv := by
  obtain ⟨v, hv⟩ := s.loadRegs_eq_setRegs k
  rw [hv]
  exact h.of_same rfl

theorem State.Inv.setI (h : s.Inv) {i : Word} (hi : i.toNat ≤ 0xFFF) : (s.setI i).Inv := { h with index := hi }

theorem State.Inv.setStack (h : s.Inv) {l : List Word} (hl : l.length ≤ 16) (ha : ∀ a ∈ l, a.toNat ≤ 0x1000) :
    (s.setStack l).Inv := { h with depth := hl, entries := ha }

theorem State.Inv.setPc_of_running (h : s.Inv) (hx : s.exec = .running) {a : Word} (ha : a.toNat ≤ 0x10FE) :
    (s.setPc a).Inv := { h with pc_le := ha, suspended := fun hne => absurd hx hne }

theorem State.Inv.setExec (h : s.Inv) (hpc : s.pc.toNat ≤ 0xFFE) (e : ExecState) : (s.setExec e).Inv :=
  { h with suspended := fun _ => hpc }

/-- A successful Load sets every piece of state that the invariant speaks of, so it meets it from any state (R34). -/
theorem State.inv_afterLoad (s : State) {bytes : List Byte} (h : bytes.length ≤ maxProgram) :
    (s.afterLoad bytes).Inv where
  mem_wf := Memory.wf_image s.glyph 0x200 bytes (Nat.add_le_add_left h 0x200)
  index := Nat.zero_le _
  depth := Nat.zero_le _
  entries := fun _ ha => nomatch ha
  pc_le := (by decide : (0x200 : Word).toNat ≤ 0x10FE)
  suspended := fun hne => absurd rfl hne

/-! ### How far an instruction moves `pc` and `I` -/

theorem toNat_addrWord_le (a : Addr) : (addrWord a).toNat ≤ 0xFFF := by
  have := a.isLt
  simp only [addrWord, BitVec.toNat_setWidth]
  omega

/-- The furthest target of `Bnnn` is 0xFFF + 0xFF: the sum is not masked (R117, D4). -/
theorem State.toNat_offsetTarget_le (s : State) (nnn : Addr) : (s.offsetTarget nnn).toNat ≤ 0x10FE := by
  have := nnn.isLt
  have := (s.getV 0).isLt
  simp only [State.offsetTarget, BitVec.toNat_add, BitVec.toNat_setWidth]
  omega

/-- A sum taken mod 4096 fits the 12 bits of `I` (R23). -/
theorem toNat_ofNat_mod_4096_le (n : Nat) : (BitVec.ofNat 16 (n % 4096)).toNat ≤ 0xFFF := by
  rw [BitVec.toNat_ofNat]
  exact (Nat.mod_le _ _).trans (Nat.le_of_lt_succ (Nat.mod_lt n (by decide)))

theorem State.toNat_indexPlus_le (s : State) (v : Byte) : (s.indexPlus v).toNat ≤ 0xFFF :=
  toNat_ofNat_mod_4096_le _

theorem toNat_glyphAddr_le (v : Byte) : (glyphAddr v).toNat ≤ 0xFFF := toNat_ofNat_mod_4096_le _

/-- No instruction executes at 0xFFF or above (D5), so the address after it is at most 0x1000. -/
theorem toNat_add_two_le {a : Word} (h : a.toNat ≤ 0xFFE) : (a + 2).toNat ≤ 0x1000 := by bv_omega

/-- The address after a skip from below 0xFFF is at most 0x1002. -/
theorem toNat_skip_le {a : Word} (h : a.toNat ≤ 0xFFE) (c : Bool) : (if c then a + 4 else a + 2).toNat ≤ 0x1002 := by
  split <;> bv_omega

/-! ### The invariant at the ends of an instruction -/

theorem State.Inv.of_finishAt {a : Word} (h : u.finishAt a = .next t) (hu : u.Inv) (hx : u.exec = .running)
    (ha : a.toNat ≤ 0x10FE) : t.Inv := by
  cases h
  exact (hu.setPc_of_running hx ha).of_same rfl

theorem State.Inv.of_finish (h : u.finish = .next t) (hu : u.Inv) (hx : u.exec = .running)
    (hpc : u.pc.toNat ≤ 0xFFE) : t.Inv :=
  State.Inv.of_finishAt h hu hx ((toNat_add_two_le hpc).trans (by decide))

theorem State.Inv.of_skipIf {c : Bool} (h : u.skipIf c = .next t) (hu : u.Inv) (hx : u.exec = .running)
    (hpc : u.pc.toNat ≤ 0xFFE) : t.Inv :=
  State.Inv.of_finishAt h hu hx ((toNat_skip_le hpc c).trans (by decide))

theorem State.Inv.of_report {c : Condition} (h : u.report c = .next t) (hu : u.Inv) (hx : u.exec = .running)
    (hpc : u.pc.toNat ≤ 0xFFE) : t.Inv := by
  cases h
  exact (hu.setPc_of_running hx ((toNat_add_two_le hpc).trans (by decide))).of_same rfl

/-! ### The invariant under the instructions, the events and the step -/

/-- An instruction that the fetch could reach keeps the invariant. -/
theorem exec_keeps_inv {i : Instr} (h : exec i s = .next t) (hs : s.Inv) (hx : s.exec = .running)
    (hpc : s.pc.toNat ≤ 0xFFE) : t.Inv := by
  cases i with
  | op00EE =>
    obtain ⟨a, rest, hst, he⟩ | ⟨_, he⟩ := exec_op00EE_cases s <;> rw [he] at h
    · have depth : (a :: rest).length ≤ 16 := hst ▸ hs.depth
      have entries : ∀ b ∈ a :: rest, b.toNat ≤ 0x1000 := hst ▸ hs.entries
      have popped := hs.setStack (Nat.le_of_succ_le depth) fun b hb => entries b (List.mem_cons_of_mem a hb)
      exact State.Inv.of_finishAt h popped hx ((entries a List.mem_cons_self).trans (by decide))
    · exact State.Inv.of_report h hs hx hpc
  | op2nnn nnn =>
    obtain ⟨room, he⟩ | ⟨_, he⟩ := exec_op2nnn_cases nnn s <;> rw [he] at h
    · have pushed := hs.setStack (l := (s.pc + 2) :: s.stack) room
        (List.forall_mem_cons.mpr ⟨toNat_add_two_le hpc, hs.entries⟩)
      exact State.Inv.of_finishAt h pushed hx ((toNat_addrWord_le nnn).trans (by decide))
    · exact State.Inv.of_report h hs hx hpc
  | op1nnn nnn => exact State.Inv.of_finishAt h hs hx ((toNat_addrWord_le nnn).trans (by decide))
  | opBnnn nnn => exact State.Inv.of_finishAt h hs hx (s.toNat_offsetTarget_le nnn)
  | op3xnn _ _ | op4xnn _ _ | op5xy0 _ _ _ | op9xy0 _ _ _ => exact State.Inv.of_skipIf h hs hx hpc
  | opEx9E x =>
    obtain ⟨_, he⟩ | ⟨_, he⟩ := exec_opEx9E_cases x s <;> rw [he] at h
    · exact State.Inv.of_skipIf h hs hx hpc
    · cases h
  | opExA1 x =>
    obtain ⟨_, he⟩ | ⟨_, he⟩ := exec_opExA1_cases x s <;> rw [he] at h
    · exact State.Inv.of_skipIf h hs hx hpc
    · cases h
  | opFx0A x =>
    rw [exec_opFx0A] at h
    cases h
    exact (hs.setExec hpc _).of_same rfl
  | opAnnn nnn => exact State.Inv.of_finish h (hs.setI (toNat_addrWord_le nnn)) hx hpc
  | opFx1E x => exact State.Inv.of_finish h (hs.setI (s.toNat_indexPlus_le _)) hx hpc
  | opFx29 x => exact State.Inv.of_finish h (hs.setI (toNat_glyphAddr_le _)) hx hpc
  | opFx33 _ => exact State.Inv.of_finish h (((hs.store _ _).store _ _).store _ _) hx hpc
  | opFx55 x =>
    obtain ⟨m, hm⟩ := s.storeRegs_eq_setMem (x.toNat + 1)
    exact State.Inv.of_finish h (hs.storeRegs _) (by rw [hm]; exact hx) (by rw [hm]; exact hpc)
  | opFx65 x =>
    obtain ⟨v, hv⟩ := s.loadRegs_eq_setRegs (x.toNat + 1)
    exact State.Inv.of_finish h (hs.loadRegs _) (by rw [hv]; exact hx) (by rw [hv]; exact hpc)
  | op00E0 | op6xnn _ _ | op7xnn _ _ | op8xy0 _ _ | op8xy1 _ _ | op8xy2 _ _ | op8xy3 _ _ | op8xy4 _ _
  | op8xy5 _ _ | op8xy6 _ _ | op8xy7 _ _ | op8xyE _ _ | opCxnn _ _ | opDxyn _ _ _ | opFx07 _ | opFx15 _ | opFx18 _ =>
    exact State.Inv.of_finish h (hs.of_same rfl) hx hpc

/-- A Cycle keeps the invariant: an instruction runs only below 0xFFF (D5), and a wait holds `pc` there (R31). -/
theorem cycle_keeps_inv {r : Byte} (h : cycle r s = .next t) (hs : s.Inv) : t.Inv := by
  obtain ⟨_, ⟨x, he, rfl⟩ | ⟨he, rfl⟩ | ⟨he, w, hf, hw⟩⟩ := cycle_next_cases h
  · exact hs.of_same rfl
  · have hpc : s.pc.toNat ≤ 0xFFE := hs.suspended (by simp [he])
    have running := hs.setExec hpc .running
    exact (running.setPc_of_running rfl ((toNat_add_two_le hpc).trans (by decide))).of_same rfl
  · have hpc : s.pc.toNat ≤ 0xFFE := Nat.le_of_lt_succ (s.pc_lt_of_fetch hf)
    obtain ⟨_, rfl⟩ | ⟨i, _, hi⟩ := hw
    · exact State.Inv.of_report (s.report_eq _) hs he hpc
    · exact exec_keeps_inv hi (hs.of_same rfl) he hpc

theorem tick_of_not_loaded (hl : s.loaded = false) : tick s = .refused .notLoaded := by simp [tick, hl]

theorem key_of_not_loaded (code : Nibble) (pressed : Bool) (hl : s.loaded = false) :
    key code pressed s = .refused .notLoaded := by simp [key, hl]

theorem tick_keeps_inv (h : tick s = .next t) (hs : s.Inv) : t.Inv := by
  cases hl : s.loaded with
  | false => rw [tick_of_not_loaded hl] at h; cases h
  | true =>
    rw [tick_of_loaded hl] at h
    cases h
    exact hs.of_same rfl

/-- A Key that ends a wait leaves `pc` on the `Fx0A`, where the wait held it (R184). -/
theorem key_keeps_inv {code : Nibble} {pressed : Bool} (h : key code pressed s = .next t) (hs : s.Inv) : t.Inv := by
  cases hl : s.loaded with
  | false => rw [key_of_not_loaded code pressed hl] at h; cases h
  | true =>
    obtain ⟨x, he, _, _, hk⟩ | ⟨_, hk⟩ := key_of_loaded code pressed hl <;> rw [hk] at h <;> cases h
    · exact (hs.setExec (hs.suspended (by simp [he])) .resuming).of_same rfl
    · exact hs.of_same rfl

theorem load_keeps_inv {bytes : List Byte} (h : load bytes s = .next t) (hs : s.Inv) : t.Inv := by
  obtain ⟨_, hL⟩ | ⟨hlen, hL⟩ := load_cases (s := s) bytes <;> rw [hL] at h <;> cases h
  · exact hs.of_same rfl
  · exact s.inv_afterLoad hlen

theorem event_keeps_inv {e : Event} (h : event e s = .next t) (hs : s.Inv) : t.Inv := by
  cases e with
  | cycle r => exact cycle_keeps_inv h hs
  | tick => exact tick_keeps_inv h hs
  | key code pressed => exact key_keeps_inv h hs
  | load bytes => exact load_keeps_inv h hs

/-! ### The values of the created, the loaded and the reset state -/

theorem State.getV_of_V_zero (h : s.V = Vector.replicate 16 0) (x : Nibble) : s.getV x = 0 := by
  simp [State.getV, h]

theorem State.getKey_of_keys_released (h : s.keys = Vector.replicate 16 false) (k : Nibble) : s.getKey k = false := by
  simp [State.getKey, h]

theorem State.cell_of_fb_allOff (h : s.fb = Pixels.allOff) (i : Nat) : s.cell i = false := by
  rw [State.cell, h, Pixels.cell_allOff]

/-- Memory after a successful Load: the image at 0x200, the glyph table and zeros elsewhere (R34, R240). -/
theorem State.read_afterLoad (s : State) (bytes : List Byte) (a : Addr) :
    (s.afterLoad bytes).read a =
      if h : 0x200 ≤ a.toNat ∧ a.toNat < 0x200 + bytes.length then bytes[a.toNat - 0x200]
      else if h : a.toNat < 80 then s.glyph[a.toNat] else 0 :=
  Memory.read_image s.glyph 0x200 a.toNat bytes

/-- Memory before any Load: the glyph table is not there, so its 80 addresses are listed as zeros (R35). -/
theorem State.read_created (g : Glyph) (a : Addr) : (State.created g).read a = 0 := by
  refine (Memory.read_image g 0 a.toNat (List.replicate 80 0)).trans ?_
  split
  · exact List.getElem_replicate _
  · next h =>
    have above : ¬a.toNat < 80 := by simpa using h
    exact dif_neg above

/-- Reset is a Load of no bytes (assumption log 7). -/
theorem State.reset_afterLoad_nil : State.reset.afterLoad [] = State.reset := rfl

/-! ### VF as a flag -/

/-- An instruction that writes the flag leaves a flag in VF: the flag is written last, so it stays even where VF is the
destination (R22, R95; D8). -/
theorem getV_regVF_of_writesFlag {i : Instr} (hi : i.writesFlag = true) (h : exec i s = .next t) :
    ∃ f, t.getV regVF = flagByte f := by
  cases i with
  | op8xy4 _ _ | op8xy5 _ _ | op8xy6 _ _ | op8xy7 _ _ | op8xyE _ _ | opDxyn _ _ _ =>
    cases h
    exact ⟨_, State.getV_setV_same _ regVF _⟩
  | _ => cases hi

theorem flagByte_eq_zero_or_one (f : Bool) : flagByte f = 0 ∨ flagByte f = 1 := by
  cases f
  · exact .inl rfl
  · exact .inr rfl

end StateRules

/-! ### The statements of 10_state.md -/

/-- Settles O57: each event keeps the invariant, and a step is an event on the state with its schedule moved on. -/
theorem everyStepKeepsTheInvariant : Obligations.EveryStepKeepsTheInvariant := by
  intro s t hs h
  obtain ⟨_, hc⟩ | ⟨e, rest, _, he⟩ := step_cases s
  · rw [hc] at h
    exact cycle_keeps_inv h (hs.of_same rfl)
  · rw [he] at h
    exact event_keeps_inv h (hs.of_same rfl)

/-- Settles O2: the image has its bytes by the law of `Memory.image`; a load of at most 0xE00 bytes is not refused. -/
theorem loadResetsEverythingAndInstallsTheImage : Obligations.LoadResetsEverythingAndInstallsTheImage := by
  intro bytes s hlen
  obtain ⟨htoo, _⟩ | ⟨_, hL⟩ := load_cases (s := s) bytes
  · exact absurd hlen (Nat.not_le_of_lt htoo)
  · exact ⟨s.afterLoad bytes, hL, s.read_afterLoad bytes, State.getV_of_V_zero rfl, rfl, rfl, rfl,
      fun i _ => State.cell_of_fb_allOff rfl i, State.getKey_of_keys_released rfl, rfl, rfl, rfl, rfl, rfl,
      State.changesOnly_afterLoad bytes s⟩

/-- Settles O4: the bytes by `State.read_created`, the refusals from the field `loaded` alone. -/
theorem createdMachineIsZeroAndRefusesUntilLoaded : Obligations.CreatedMachineIsZeroAndRefusesUntilLoaded := by
  constructor
  · intro g
    exact ⟨State.read_created g, State.getV_of_V_zero rfl, rfl, rfl, rfl, fun i _ => State.cell_of_fb_allOff rfl i,
      State.getKey_of_keys_released rfl, rfl, rfl, rfl, rfl⟩
  · intro s hl
    exact ⟨fun r => cycle_of_not_loaded r hl, tick_of_not_loaded hl, fun code pressed => key_of_not_loaded code pressed hl⟩

/-- Settles O37: VF holds a flag, and a flag is 0 or 1. -/
theorem flagWritersLeaveZeroOrOneInVF : Obligations.FlagWritersLeaveZeroOrOneInVF := by
  intro i s t hi h
  obtain ⟨f, hf⟩ := getV_regVF_of_writesFlag hi h
  rw [hf]
  exact flagByte_eq_zero_or_one f

/-- Settles O1: memory after a Load of no bytes; the other pieces are the fields of `State.reset`. -/
theorem resetHoldsTheResetValues : Obligations.ResetHoldsTheResetValues := by
  refine ⟨fun a => ?_, State.getV_of_V_zero rfl, rfl, rfl, rfl, fun i _ => State.cell_of_fb_allOff rfl i,
    State.getKey_of_keys_released rfl, rfl, rfl, rfl, rfl⟩
  have noImage : ¬(0x200 ≤ a.toNat ∧ a.toNat < 0x200 + ([] : List Byte).length) := fun ⟨lo, hi⟩ => Nat.not_lt_of_le lo hi
  have loaded := State.read_afterLoad State.reset [] a
  rw [State.reset_afterLoad_nil, dif_neg noImage] at loaded
  exact loaded

/-- Settles O56: reset is a Load of no bytes, and a Load meets the invariant. -/
theorem resetStateMeetsTheInvariant : Obligations.ResetStateMeetsTheInvariant := by
  have loaded := State.inv_afterLoad State.reset (bytes := []) (Nat.zero_le _)
  rwa [State.reset_afterLoad_nil] at loaded

end Sys2Proof.Machine

/-! SUPPORT. The statements of 20_memory.md: the fetch (R54, R55, R57), code stored by `Fx55` and fetched by the next Cycle (R62),
and the machine that a fetch abort wedges until a Load (R215, R240). -/

namespace Sys2Proof.Machine

section MemoryRules

variable {s : State}

/-! ### Bytes that `Fx55` stores, and a fetch where `I` points -/

@[simp] theorem State.storeRegs_pc (s : State) (k : Nat) : (s.storeRegs k).pc = s.pc := by
  obtain ⟨m, hm⟩ := s.storeRegs_eq_setMem k
  rw [hm, State.setMem_pc]

@[simp] theorem State.storeRegs_I (s : State) (k : Nat) : (s.storeRegs k).I = s.I := by
  obtain ⟨m, hm⟩ := s.storeRegs_eq_setMem k
  rw [hm, State.setMem_I]

@[simp] theorem State.storeRegs_dataAddr (s : State) (k j : Nat) : (s.storeRegs k).dataAddr j = s.dataAddr j := by
  rw [State.dataAddr, State.storeRegs_I, State.dataAddr]

/-- Register `j` is at offset `j` after the stores of `Fx55` (R154). -/
theorem State.read_storeRegs_dataAddr (s : State) {j k : Nat} (hk : k ≤ 16) (hj : j < k) :
    (s.storeRegs k).read (s.dataAddr j) = s.getV (BitVec.ofNat 4 j) :=
  (s.read_storeRegs k hk (s.dataAddr j)).2 j hj rfl

/-- `Fx55` stores its registers and goes on at the next instruction (R154). -/
theorem exec_opFx55 (x : Nibble) (s : State) :
    exec (.opFx55 x) s = .next (((s.storeRegs (x.toNat + 1)).setPc (s.pc + 2)).setResult (some .executed)) := by
  simp only [exec, execFx55, State.finish_eq, State.storeRegs_pc]

/-- A fetch where `pc` is `I` reads the bytes at offsets 0 and 1 from `I`. -/
theorem State.fetch_of_pc_eq_I (hpc : s.pc = s.I) (hlt : s.pc.toNat < 0xFFF) :
    s.fetch = .ok (s.read (s.dataAddr 0) ++ s.read (s.dataAddr 1)) := by
  rw [s.fetch_of_lt hlt, hpc]
  rfl

/-! ### What the host sees of an event, by its answer -/

theorem deliver_of_next {e : Event} {t : State} (h : event e s = .next t) : deliver e s = t := by
  simp only [deliver, h]

theorem deliver_of_fault {e : Event} {f : Fault} (h : event e s = .fault f) :
    deliver e s = s.setResult (some (.aborted f)) := by
  simp only [deliver, h]

/-- A Key on a running machine sets its slot and nothing else (R180, R184). -/
theorem key_of_running (code : Nibble) (pressed : Bool) (hl : s.loaded = true) (he : s.exec = .running) :
    key code pressed s = .next ((s.setKey code pressed).setResult none) := by
  obtain ⟨x, hx, _⟩ | ⟨_, hk⟩ := key_of_loaded code pressed hl
  · rw [he] at hx
    cases hx
  · exact hk

/-! ### The wedge: a running machine whose `pc` no fetch can read (R54, R215; D5, D6) -/

/-- The machine is loaded and running, and stands at an address `a` at which a fetch aborts. -/
structure State.WedgedAt (a : Word) (s : State) : Prop where
  loaded : s.loaded = true
  running : s.exec = .running
  pc_eq : s.pc = a
  out_of_bounds : 0xFFF ≤ a.toNat

/-- The wedge speaks of three fields, and of nothing else. -/
theorem State.WedgedAt.of_same {a : Word} {t : State} (h : s.WedgedAt a)
    (e : (t.loaded, t.exec, t.pc) = (s.loaded, s.exec, s.pc)) : t.WedgedAt a := by
  simp only [Prod.mk.injEq] at e
  obtain ⟨hl, hx, hpc⟩ := e
  exact ⟨hl.trans h.loaded, hx.trans h.running, hpc.trans h.pc_eq, h.out_of_bounds⟩

theorem State.WedgedAt.event_cycle {a : Word} (h : s.WedgedAt a) (r : Byte) :
    event (.cycle r) s = .fault (.outOfBounds a) := by
  refine (cycle_fault_iff r s _).mpr ⟨h.loaded, h.running, .inl ?_⟩
  rw [h.pc_eq]
  exact ⟨h.out_of_bounds, rfl⟩

/-- Of the four events only a Load can end the wedge: a Cycle aborts, and a Tick and a Key touch neither `pc` nor, on a running
machine, the execution state. -/
theorem State.WedgedAt.after_deliver {a : Word} (h : s.WedgedAt a) {e : Event} (noLoad : ∀ bytes, e ≠ .load bytes) :
    (deliver e s).WedgedAt a := by
  cases e with
  | cycle r =>
    rw [deliver_of_fault (h.event_cycle r)]
    exact h.of_same rfl
  | tick =>
    rw [deliver_of_next (e := .tick) (tick_of_loaded h.loaded)]
    exact h.of_same rfl
  | key code pressed =>
    rw [deliver_of_next (e := .key code pressed) (key_of_running code pressed h.loaded h.running)]
    exact h.of_same rfl
  | load bytes => exact absurd rfl (noLoad bytes)

theorem State.WedgedAt.after_deliverAll {a : Word} (h : s.WedgedAt a) {es : List Event}
    (noLoad : ∀ e ∈ es, ∀ bytes, e ≠ .load bytes) : (s.deliverAll es).WedgedAt a :=
  List.foldlRecOn es _ h fun _ ht e he => ht.after_deliver (noLoad e he)

end MemoryRules

/-! ### The statements of 20_memory.md -/

/-- Settles O43: the next instruction is where `I` points, so the fetch reads the two offsets that the stores wrote. -/
theorem storedCodeIsFetchedNext : Obligations.StoredCodeIsFetchedNext := by
  intro s hlt hI
  refine ⟨_, exec_opFx55 1 s, ?_⟩
  have next_eq_I : s.pc + 2 = s.I := by bv_omega
  have next_lt : (s.pc + 2).toNat < 0xFFF := by rw [next_eq_I, hI]; exact hlt
  rw [State.fetch_of_pc_eq_I (by simpa using next_eq_I) next_lt]
  have stored (j : Nat) (hj : j < 2) := s.read_storeRegs_dataAddr (k := 2) (by decide) hj
  simp [stored]

/-- Settles O53: the wedge holds after every list of events without a Load, and a Load that fits is not refused. -/
theorem fetchAbortWedgesUntilALoad : Obligations.FetchAbortWedgesUntilALoad := by
  intro s es hl he hpc noLoad
  have wedged : (s.deliverAll es).WedgedAt s.pc := State.WedgedAt.after_deliverAll ⟨hl, he, rfl, hpc⟩ noLoad
  refine ⟨wedged.pc_eq, wedged.event_cycle, ⟨_, tick_of_loaded wedged.loaded⟩,
    fun code pressed => ⟨_, key_of_running code pressed wedged.loaded wedged.running⟩, fun bytes hlen => ?_⟩
  obtain ⟨htoo, _⟩ | ⟨_, hL⟩ := load_cases (s := s.deliverAll es) bytes
  · exact absurd hlen (Nat.not_le_of_lt htoo)
  · exact ⟨_, hL, rfl⟩

/-- Settles O9, by the two laws of the fetch; neither asks for a parity of `pc`. -/
theorem fetchIsBigEndianAndDoesNotWrap : Obligations.FetchIsBigEndianAndDoesNotWrap :=
  fun s => ⟨s.fetch_of_lt, s.fetch_of_ge⟩

end Sys2Proof.Machine

/-! SUPPORT. The statements of 30_encoding.md: what the decoder can answer (R74, R80), said once; decode and encode as inverses of
each other (R71, R72); and the opcode map (R75) as the rows of the instructions. -/

namespace Sys2Proof

section EncodingRules

variable {w : Word}

/-! ### A word rebuilt from its group and its sub-code -/

theorem shapeA_of_group {g : Nibble} (hg : fieldGroup w = g) : shapeA g (fieldNNN w) = w := by
  rw [← hg, shapeA_fields]

theorem shapeXI_of_group {g : Nibble} (hg : fieldGroup w = g) : shapeXI g (fieldX w) (fieldNN w) = w := by
  rw [← hg, shapeXI_fields]

theorem shapeXY_of_group {g : Nibble} (hg : fieldGroup w = g) : shapeXY g (fieldX w) (fieldY w) (fieldN w) = w := by
  rw [← hg, shapeXY_fields]

theorem shapeA_of_subcode {g : Nibble} {c : Addr} (hg : fieldGroup w = g) (hc : fieldNNN w = c) : shapeA g c = w := by
  rw [← hc, shapeA_of_group hg]

theorem shapeXI_of_subcode {g : Nibble} {c : Byte} (hg : fieldGroup w = g) (hc : fieldNN w = c) :
    shapeXI g (fieldX w) c = w := by
  rw [← hc, shapeXI_of_group hg]

theorem shapeXY_of_subcode {g c : Nibble} (hg : fieldGroup w = g) (hc : fieldN w = c) :
    shapeXY g (fieldX w) (fieldY w) c = w := by
  rw [← hc, shapeXY_of_group hg]

/-! ### What the decoder can answer (R74, R80) -/

/-- The answers to a word: an instruction whose word it is, or that the word is `UNKNOWN`. -/
inductive DecodeAnswer (w : Word) : Except Reject Instr → Prop where
  | instr {i : Instr} (h : encode i = w) : DecodeAnswer w (.ok i)
  | unknown : DecodeAnswer w (.error (.unknownOpcode w))

theorem decodeGroup0_answer (hg : fieldGroup w = 0x0) : DecodeAnswer w (decodeGroup0 w) := by
  unfold decodeGroup0
  split_ifs with hE0 hEE
  · exact .instr (shapeA_of_subcode hg hE0)
  · exact .instr (shapeA_of_subcode hg hEE)
  · exact .unknown

theorem decodeGroup8_answer (hg : fieldGroup w = 0x8) : DecodeAnswer w (decodeGroup8 w) := by
  unfold decodeGroup8
  split
  case h_10 => exact .unknown
  all_goals next hn => exact .instr (shapeXY_of_subcode hg (BitVec.eq_of_toNat_eq hn))

theorem decodeGroupE_answer (hg : fieldGroup w = 0xE) : DecodeAnswer w (decodeGroupE w) := by
  unfold decodeGroupE
  split_ifs with h9E hA1
  · exact .instr (shapeXI_of_subcode hg h9E)
  · exact .instr (shapeXI_of_subcode hg hA1)
  · exact .unknown

theorem decodeGroupF_answer (hg : fieldGroup w = 0xF) : DecodeAnswer w (decodeGroupF w) := by
  unfold decodeGroupF
  split_ifs with h07 h0A h15 h18 h1E h29 h33 h55 h65
  · exact .instr (shapeXI_of_subcode hg h07)
  · exact .instr (shapeXI_of_subcode hg h0A)
  · exact .instr (shapeXI_of_subcode hg h15)
  · exact .instr (shapeXI_of_subcode hg h18)
  · exact .instr (shapeXI_of_subcode hg h1E)
  · exact .instr (shapeXI_of_subcode hg h29)
  · exact .instr (shapeXI_of_subcode hg h33)
  · exact .instr (shapeXI_of_subcode hg h55)
  · exact .instr (shapeXI_of_subcode hg h65)
  · exact .unknown

/-- The decode procedure is total (R74): what it reads from a word is that word's instruction, and what it rejects is `UNKNOWN`. -/
theorem decode_answer (w : Word) : DecodeAnswer w (decode w) := by
  unfold decode
  split
  · next hg => exact decodeGroup0_answer (BitVec.eq_of_toNat_eq hg)
  · next hg => exact .instr (shapeA_of_group (BitVec.eq_of_toNat_eq hg))
  · next hg => exact .instr (shapeA_of_group (BitVec.eq_of_toNat_eq hg))
  · next hg => exact .instr (shapeXI_of_group (BitVec.eq_of_toNat_eq hg))
  · next hg => exact .instr (shapeXI_of_group (BitVec.eq_of_toNat_eq hg))
  · next hg => exact .instr (shapeXY_of_group (BitVec.eq_of_toNat_eq hg))
  · next hg => exact .instr (shapeXI_of_group (BitVec.eq_of_toNat_eq hg))
  · next hg => exact .instr (shapeXI_of_group (BitVec.eq_of_toNat_eq hg))
  · next hg => exact decodeGroup8_answer (BitVec.eq_of_toNat_eq hg)
  · next hg => exact .instr (shapeXY_of_group (BitVec.eq_of_toNat_eq hg))
  · next hg => exact .instr (shapeA_of_group (BitVec.eq_of_toNat_eq hg))
  · next hg => exact .instr (shapeA_of_group (BitVec.eq_of_toNat_eq hg))
  · next hg => exact .instr (shapeXI_of_group (BitVec.eq_of_toNat_eq hg))
  · next hg => exact .instr (shapeXY_of_group (BitVec.eq_of_toNat_eq hg))
  · next hg => exact decodeGroupE_answer (BitVec.eq_of_toNat_eq hg)
  · next =>
    simp only [imp_false] at *
    exact decodeGroupF_answer (by bv_omega)

theorem encode_of_decode {i : Instr} (h : decode w = .ok i) : encode i = w := by
  have answer := decode_answer w
  rw [h] at answer
  cases answer with
  | instr henc => exact henc

/-! ### Decoding the word of an instruction -/

theorem decode_of_group8 (hg : fieldGroup w = 0x8) : decode w = decodeGroup8 w := by simp [decode, hg]

theorem decode_of_groupE (hg : fieldGroup w = 0xE) : decode w = decodeGroupE w := by simp [decode, hg]

theorem decode_of_groupF (hg : fieldGroup w = 0xF) : decode w = decodeGroupF w := by simp [decode, hg]

/-- Decoding is a left inverse of encoding, format by format (R72): the fields of a word of a format are its operands. -/
theorem decode_encode (i : Instr) : decode (encode i) = .ok i := by
  cases i with
  | op00E0 | op00EE => decide
  | op1nnn _ | op2nnn _ | opAnnn _ | opBnnn _ => simp [encode, decode]
  | op3xnn _ _ | op4xnn _ _ | op6xnn _ _ | op7xnn _ _ | opCxnn _ _ => simp [encode, decode]
  | op5xy0 _ _ _ | op9xy0 _ _ _ | opDxyn _ _ _ => simp [encode, decode]
  | op8xy0 x y | op8xy1 x y | op8xy2 x y | op8xy3 x y | op8xy4 x y | op8xy5 x y | op8xy6 x y | op8xy7 x y | op8xyE x y =>
    rw [encode, decode_of_group8 (fieldGroup_shapeXY _ _ _ _)]
    simp [decodeGroup8]
  | opEx9E x | opExA1 x =>
    rw [encode, decode_of_groupE (fieldGroup_shapeXI _ _ _)]
    simp [decodeGroupE]
  | opFx07 x | opFx0A x | opFx15 x | opFx18 x | opFx1E x | opFx29 x | opFx33 x | opFx55 x | opFx65 x =>
    rw [encode, decode_of_groupF (fieldGroup_shapeXI _ _ _)]
    simp [decodeGroupF]

/-! ### The opcode map (R75): the words of the instructions match their rows -/

/-- The word of every instruction matches the instruction's row, and the row is in the map. -/
theorem encode_matches_row : (i : Instr) → Laws.OpcodeMap.Statement i
  | .op00E0 => Laws.OpcodeMap.op00E0
  | .op00EE => Laws.OpcodeMap.op00EE
  | .op1nnn nnn => Laws.OpcodeMap.op1nnn nnn
  | .op2nnn nnn => Laws.OpcodeMap.op2nnn nnn
  | .op3xnn x nn => Laws.OpcodeMap.op3xnn x nn
  | .op4xnn x nn => Laws.OpcodeMap.op4xnn x nn
  | .op5xy0 x y n => Laws.OpcodeMap.op5xy0 x y n
  | .op6xnn x nn => Laws.OpcodeMap.op6xnn x nn
  | .op7xnn x nn => Laws.OpcodeMap.op7xnn x nn
  | .op8xy0 x y => Laws.OpcodeMap.op8xy0 x y
  | .op8xy1 x y => Laws.OpcodeMap.op8xy1 x y
  | .op8xy2 x y => Laws.OpcodeMap.op8xy2 x y
  | .op8xy3 x y => Laws.OpcodeMap.op8xy3 x y
  | .op8xy4 x y => Laws.OpcodeMap.op8xy4 x y
  | .op8xy5 x y => Laws.OpcodeMap.op8xy5 x y
  | .op8xy6 x y => Laws.OpcodeMap.op8xy6 x y
  | .op8xy7 x y => Laws.OpcodeMap.op8xy7 x y
  | .op8xyE x y => Laws.OpcodeMap.op8xyE x y
  | .op9xy0 x y n => Laws.OpcodeMap.op9xy0 x y n
  | .opAnnn nnn => Laws.OpcodeMap.opAnnn nnn
  | .opBnnn nnn => Laws.OpcodeMap.opBnnn nnn
  | .opCxnn x nn => Laws.OpcodeMap.opCxnn x nn
  | .opDxyn x y n => Laws.OpcodeMap.opDxyn x y n
  | .opEx9E x => Laws.OpcodeMap.opEx9E x
  | .opExA1 x => Laws.OpcodeMap.opExA1 x
  | .opFx07 x => Laws.OpcodeMap.opFx07 x
  | .opFx0A x => Laws.OpcodeMap.opFx0A x
  | .opFx15 x => Laws.OpcodeMap.opFx15 x
  | .opFx18 x => Laws.OpcodeMap.opFx18 x
  | .opFx1E x => Laws.OpcodeMap.opFx1E x
  | .opFx29 x => Laws.OpcodeMap.opFx29 x
  | .opFx33 x => Laws.OpcodeMap.opFx33 x
  | .opFx55 x => Laws.OpcodeMap.opFx55 x
  | .opFx65 x => Laws.OpcodeMap.opFx65 x

/-! ### What a match on each mask says of a word: its group, and its sub-code where the mask tests one -/

theorem fieldGroup_of_and_F000 {g : Nibble} (h : w &&& 0xF000 = shapeA g 0) : fieldGroup w = g := by
  rw [← shapeA_fields w, shapeA_and_F000] at h
  simpa using congrArg fieldGroup h

theorem shapeXY_of_and_F00F {g c : Nibble} (h : w &&& 0xF00F = shapeXY g 0 0 c) :
    shapeXY g (fieldX w) (fieldY w) c = w := by
  rw [← shapeXY_fields w, shapeXY_and_F00F] at h
  exact shapeXY_of_subcode (by simpa using congrArg fieldGroup h) (by simpa using congrArg fieldN h)

theorem shapeXI_of_and_F0FF {g : Nibble} {c : Byte} (h : w &&& 0xF0FF = shapeXI g 0 c) :
    shapeXI g (fieldX w) c = w := by
  rw [← shapeXI_fields w, shapeXI_and_F0FF] at h
  exact shapeXI_of_subcode (by simpa using congrArg fieldGroup h) (by simpa using congrArg fieldNN h)

/-! ### And a word that matches a row is the word of an instruction of that row -/

/-- A word that matches the row of an instruction is the word of an instruction of that row: the operands are the fields of the
word, and the rest is what the mask tests. -/
theorem exists_encode_of_matches_row (i : Instr) (h : w &&& i.row.mask = i.row.pattern) :
    ∃ j : Instr, encode j = w ∧ j.row = i.row := by
  cases i with
  | op00E0 => exact ⟨.op00E0, (BitVec.and_allOnes.symm.trans h).symm, rfl⟩
  | op00EE => exact ⟨.op00EE, (BitVec.and_allOnes.symm.trans h).symm, rfl⟩
  | op1nnn _ => exact ⟨.op1nnn _, shapeA_of_group (fieldGroup_of_and_F000 h), rfl⟩
  | op2nnn _ => exact ⟨.op2nnn _, shapeA_of_group (fieldGroup_of_and_F000 h), rfl⟩
  | op3xnn _ _ => exact ⟨.op3xnn _ _, shapeXI_of_group (fieldGroup_of_and_F000 h), rfl⟩
  | op4xnn _ _ => exact ⟨.op4xnn _ _, shapeXI_of_group (fieldGroup_of_and_F000 h), rfl⟩
  | op5xy0 _ _ _ => exact ⟨.op5xy0 _ _ _, shapeXY_of_group (fieldGroup_of_and_F000 h), rfl⟩
  | op6xnn _ _ => exact ⟨.op6xnn _ _, shapeXI_of_group (fieldGroup_of_and_F000 h), rfl⟩
  | op7xnn _ _ => exact ⟨.op7xnn _ _, shapeXI_of_group (fieldGroup_of_and_F000 h), rfl⟩
  | op8xy0 _ _ => exact ⟨.op8xy0 _ _, shapeXY_of_and_F00F h, rfl⟩
  | op8xy1 _ _ => exact ⟨.op8xy1 _ _, shapeXY_of_and_F00F h, rfl⟩
  | op8xy2 _ _ => exact ⟨.op8xy2 _ _, shapeXY_of_and_F00F h, rfl⟩
  | op8xy3 _ _ => exact ⟨.op8xy3 _ _, shapeXY_of_and_F00F h, rfl⟩
  | op8xy4 _ _ => exact ⟨.op8xy4 _ _, shapeXY_of_and_F00F h, rfl⟩
  | op8xy5 _ _ => exact ⟨.op8xy5 _ _, shapeXY_of_and_F00F h, rfl⟩
  | op8xy6 _ _ => exact ⟨.op8xy6 _ _, shapeXY_of_and_F00F h, rfl⟩
  | op8xy7 _ _ => exact ⟨.op8xy7 _ _, shapeXY_of_and_F00F h, rfl⟩
  | op8xyE _ _ => exact ⟨.op8xyE _ _, shapeXY_of_and_F00F h, rfl⟩
  | op9xy0 _ _ _ => exact ⟨.op9xy0 _ _ _, shapeXY_of_group (fieldGroup_of_and_F000 h), rfl⟩
  | opAnnn _ => exact ⟨.opAnnn _, shapeA_of_group (fieldGroup_of_and_F000 h), rfl⟩
  | opBnnn _ => exact ⟨.opBnnn _, shapeA_of_group (fieldGroup_of_and_F000 h), rfl⟩
  | opCxnn _ _ => exact ⟨.opCxnn _ _, shapeXI_of_group (fieldGroup_of_and_F000 h), rfl⟩
  | opDxyn _ _ _ => exact ⟨.opDxyn _ _ _, shapeXY_of_group (fieldGroup_of_and_F000 h), rfl⟩
  | opEx9E _ => exact ⟨.opEx9E _, shapeXI_of_and_F0FF h, rfl⟩
  | opExA1 _ => exact ⟨.opExA1 _, shapeXI_of_and_F0FF h, rfl⟩
  | opFx07 _ => exact ⟨.opFx07 _, shapeXI_of_and_F0FF h, rfl⟩
  | opFx0A _ => exact ⟨.opFx0A _, shapeXI_of_and_F0FF h, rfl⟩
  | opFx15 _ => exact ⟨.opFx15 _, shapeXI_of_and_F0FF h, rfl⟩
  | opFx18 _ => exact ⟨.opFx18 _, shapeXI_of_and_F0FF h, rfl⟩
  | opFx1E _ => exact ⟨.opFx1E _, shapeXI_of_and_F0FF h, rfl⟩
  | opFx29 _ => exact ⟨.opFx29 _, shapeXI_of_and_F0FF h, rfl⟩
  | opFx33 _ => exact ⟨.opFx33 _, shapeXI_of_and_F0FF h, rfl⟩
  | opFx55 _ => exact ⟨.opFx55 _, shapeXI_of_and_F0FF h, rfl⟩
  | opFx65 _ => exact ⟨.opFx65 _, shapeXI_of_and_F0FF h, rfl⟩

/-- Every row of the map is the row of an instruction. -/
theorem exists_row_eq {row : OpRow} (h : row ∈ opcodeTable) : ∃ i : Instr, i.row = row := by
  unfold opcodeTable at h
  fin_cases h <;> exact ⟨_, rfl⟩

/-- A word matches the row of an instruction exactly when it decodes to an instruction of that row. -/
theorem matches_row_iff (w : Word) (i : Instr) :
    w &&& i.row.mask = i.row.pattern ↔ ∃ j : Instr, decode w = .ok j ∧ j.row = i.row := by
  constructor
  · intro h
    obtain ⟨j, rfl, hrow⟩ := exists_encode_of_matches_row i h
    exact ⟨j, decode_encode j, hrow⟩
  · rintro ⟨j, hdec, hrow⟩
    rw [← encode_of_decode hdec, ← hrow]
    exact (encode_matches_row j).1

theorem decode_unknown_iff (w : Word) :
    decode w = .error (.unknownOpcode w) ↔ ∀ i : Instr, w &&& i.row.mask ≠ i.row.pattern := by
  constructor
  · intro hunk i hmatch
    obtain ⟨j, hdec, _⟩ := (matches_row_iff w i).mp hmatch
    rw [hunk] at hdec
    cases hdec
  · intro hnone
    cases hdec : decode w with
    | ok i => exact absurd ((matches_row_iff w i).mpr ⟨i, hdec, rfl⟩) (hnone i)
    | error e =>
      have answer := decode_answer w
      rw [hdec] at answer
      cases answer with
      | unknown => rfl

end EncodingRules

/-! ### The statements of 30_encoding.md -/

/-- Settles O5, by the law of decoding an encoded instruction, proved format by format. -/
theorem decodeOfEncodeIsTheInstruction : Obligations.DecodeOfEncodeIsTheInstruction := decode_encode

/-- Settles O6: the decoder answers with an instruction of the word or with UNKNOWN, and with no third thing. -/
theorem encodeOfDecodeIsTheWord : Obligations.EncodeOfDecodeIsTheWord := fun _ _ => encode_of_decode

/-- Settles O7: the rows of the map are the rows of the instructions, for which both clauses are laws of the decoder. -/
theorem decoderAgreesWithTheOpcodeMap : Obligations.DecoderAgreesWithTheOpcodeMap := by
  intro w
  refine ⟨fun row hrow => ?_, (decode_unknown_iff w).trans ⟨fun h row hrow => ?_, fun h i => ?_⟩⟩
  · obtain ⟨i, rfl⟩ := exists_row_eq hrow
    exact matches_row_iff w i
  · obtain ⟨i, rfl⟩ := exists_row_eq hrow
    exact h i
  · exact h i.row (encode_matches_row i).2

end Sys2Proof

/-! SUPPORT. The statements of 40_dispatch_cycle.md: the result of an instruction and of a Cycle (R98), the instruction a step
runs (R90, R95), and the Cycles that run none (R91, R92, R97). -/

namespace Sys2Proof.Machine

section DispatchRules

variable {s t u : State}

/-! ### The result of an instruction, by how it ends (R98) -/

theorem State.result_of_finishAt {a : Word} (h : u.finishAt a = .next t) : t.result = some .executed := by
  cases h
  rfl

theorem State.result_of_report {c : Condition} (h : s.report c = .next t) : t.result = some (.reported c) := by
  cases h
  rfl

/-- A call with a full stack reports the overflow (R212). -/
theorem result_of_exec_op2nnn_full {nnn : Addr} (h : exec (.op2nnn nnn) s = .next t) (full : 16 ≤ s.stack.length) :
    t.result = some (.reported .stackOverflow) := by
  obtain ⟨room, _⟩ | ⟨_, he⟩ := exec_op2nnn_cases nnn s
  · exact absurd full (Nat.not_le_of_lt room)
  · exact State.result_of_report (he ▸ h)

/-- A return with an empty stack reports the underflow (R213). -/
theorem result_of_exec_op00EE_empty (h : exec .op00EE s = .next t) (empty : s.stack = []) :
    t.result = some (.reported .stackUnderflow) := by
  obtain ⟨a, rest, hst, _⟩ | ⟨_, he⟩ := exec_op00EE_cases s
  · rw [empty] at hst
    cases hst
  · exact State.result_of_report (he ▸ h)

/-- Every other instruction that answers a next state is `Executed`: it ends with `finishAt` (R98, R220). -/
theorem result_of_exec_of_no_condition {i : Instr} (h : exec i s = .next t)
    (room : ∀ nnn, i = .op2nnn nnn → s.stack.length < 16) (nonempty : i = .op00EE → s.stack ≠ []) :
    t.result = some .executed := by
  cases i with
  | op2nnn nnn =>
    obtain ⟨_, he⟩ | ⟨full, _⟩ := exec_op2nnn_cases nnn s
    · exact State.result_of_finishAt (he ▸ h)
    · exact absurd full (Nat.not_le_of_lt (room nnn rfl))
  | op00EE =>
    obtain ⟨a, rest, _, he⟩ | ⟨empty, _⟩ := exec_op00EE_cases s
    · exact State.result_of_finishAt (he ▸ h)
    · exact absurd empty (nonempty rfl)
  | opEx9E x =>
    obtain ⟨_, he⟩ | ⟨_, he⟩ := exec_opEx9E_cases x s <;> rw [he] at h
    · exact State.result_of_finishAt h
    · cases h
  | opExA1 x =>
    obtain ⟨_, he⟩ | ⟨_, he⟩ := exec_opExA1_cases x s <;> rw [he] at h
    · exact State.result_of_finishAt h
    · cases h
  | _ => exact State.result_of_finishAt h

/-! ### A step with no event, and what the fetch does not read -/

/-- With an empty inbox a step is a Cycle with a free random byte. -/
theorem step_of_empty_inbox (h : s.inbox = []) :
    step s = cycle (Config.rand8 s.draws) (s.setDraws (s.draws + 1)) := by
  obtain ⟨_, hs⟩ | ⟨e, rest, hc, _⟩ := step_cases s
  · exact hs
  · rw [h] at hc
    cases hc

@[simp] theorem State.fetch_setDraws (s : State) (n : Nat) : (s.setDraws n).fetch = s.fetch := rfl

@[simp] theorem State.fetch_setInbox (s : State) (l : List Event) : (s.setInbox l).fetch = s.fetch := rfl

/-! ### The slot of a key -/

@[simp] theorem State.getKey_setKey_same (s : State) (k : Nibble) (b : Bool) : (s.setKey k b).getKey k = b := by
  simp [State.getKey_setKey]

/-- After a Key its slot holds the state it set, in every execution state (R180, R186). -/
theorem key_sets_slot (code : Nibble) (pressed : Bool) (hl : s.loaded = true) :
    ∃ t, key code pressed s = .next t ∧ t.getKey code = pressed := by
  obtain ⟨x, _, _, _, hk⟩ | ⟨_, hk⟩ := key_of_loaded code pressed hl
  · exact ⟨_, hk, s.getKey_setKey_same code pressed⟩
  · exact ⟨_, hk, s.getKey_setKey_same code pressed⟩

end DispatchRules

/-! ### The statements of 40_dispatch_cycle.md -/

/-- Settles O52: the phase of the machine decides, and for a running machine the end of the decoded instruction. -/
theorem cycleReturnsTheResultOfTheTable : Obligations.CycleReturnsTheResultOfTheTable := by
  intro s t r h
  change cycle r s = .next t at h
  obtain ⟨hl, _⟩ := cycle_next_cases h
  refine ⟨fun x he => ?_, fun he => ?_, fun w he hf => ?_⟩
  · rw [cycle_of_awaiting r hl he] at h
    cases h
    rfl
  · rw [cycle_of_resuming r hl he] at h
    cases h
    rfl
  · have runs {i : Instr} (hd : decode w = .ok i) : exec i (s.setRand8 r) = .next t :=
      cycle_of_instr r hl he hf hd ▸ h
    refine ⟨fun hd => ?_, fun nnn hd full => ?_, fun hd empty => ?_, fun i hd room nonempty => ?_⟩
    · exact State.result_of_report (cycle_of_unknown r hl he hf hd ▸ h)
    · exact result_of_exec_op2nnn_full (runs hd) full
    · exact result_of_exec_op00EE_empty (runs hd) empty
    · exact result_of_exec_of_no_condition (runs hd) room nonempty

/-- Settles O10, for both sources of the Cycle: the fetch reads neither the inbox nor the count of draws. -/
theorem stepRunsTheDecodedInstruction : Obligations.StepRunsTheDecodedInstruction := by
  intro s w i hl he hf hd
  refine ⟨fun hn => ?_, fun r rest hc => ?_⟩
  · rw [step_of_empty_inbox hn]
    exact cycle_of_instr _ hl he ((s.fetch_setDraws _).trans hf) hd
  · rw [stepTakesTheNextEvent s _ rest hc]
    exact cycle_of_instr r hl he ((s.fetch_setInbox rest).trans hf) hd

/-- Settles O12, by the report of a condition and its frame. -/
theorem unknownWordIsAReportedNoOp : Obligations.UnknownWordIsAReportedNoOp :=
  fun s r _ hl he hf hd =>
    ⟨_, cycle_of_unknown r hl he hf hd, rfl, rfl, State.changesOnly_of_report (State.report_eq s _)⟩

/-- Settles O13: a Cycle looks at the wait before it fetches, and Ticks and Keys ask only that a program is loaded. -/
theorem cycleIsIdleWhileAwaitingAKey : Obligations.CycleIsIdleWhileAwaitingAKey := by
  rintro s ⟨hl, x, he⟩
  refine ⟨fun r => ?_, ?_, fun code pressed => key_sets_slot code pressed hl⟩
  · exact ⟨_, cycle_of_awaiting r hl he, rfl,
      State.changesOnly_setResult _ (State.changesOnly_refl _ s) (by simp), hl, x, he⟩
  · exact ⟨_, tick_of_loaded hl, toNat_tickTimer s.DT, toNat_tickTimer s.ST⟩

/-- Settles O14: the Cycle of a resuming machine, whose frame is that of every Cycle in this phase. -/
theorem retiringCycleOnlyAddsTwo : Obligations.RetiringCycleOnlyAddsTwo := by
  intro s r hl he
  have retires := cycle_of_resuming r hl he
  have writes : s.cycleWrites = [.pc, .exec, .result] := by simp only [State.cycleWrites, he]
  exact ⟨_, retires, rfl, rfl, rfl, writes ▸ cycle_changesOnly retires⟩

end Sys2Proof.Machine

/-! SUPPORT. The statements of 41_control_flow.md: the call and the return by the depth of the stack (R110, R112), the targets of
the jumps (R111, R117), the skips (R113 to R116), and the idle loop (R247 (a)). -/

namespace Sys2Proof.Machine

section ControlRules

variable {s : State}

/-! ### The return and the call, by the depth of the stack (R110, R112) -/

theorem exec_op00EE_of_cons {a : Word} {rest : List Word} (h : s.stack = a :: rest) :
    exec .op00EE s = (s.setStack rest).finishAt a := by
  simp only [exec, exec00EE, s.pop_cons h]

theorem exec_op00EE_of_nil (h : s.stack = []) : exec .op00EE s = s.report .stackUnderflow := by
  simp only [exec, exec00EE, s.pop_nil h]

theorem exec_op2nnn_of_lt (nnn : Addr) (h : s.stack.length < 16) :
    exec (.op2nnn nnn) s = (s.setStack ((s.pc + 2) :: s.stack)).finishAt (addrWord nnn) := by
  simp only [exec, exec2nnn, s.push_of_lt _ h]

theorem exec_op2nnn_of_full (nnn : Addr) (h : 16 ≤ s.stack.length) :
    exec (.op2nnn nnn) s = s.report .stackOverflow := by
  simp only [exec, exec2nnn, s.push_of_full _ h]

/-! ### The targets of the jumps (R73, R111, R117) -/

@[simp] theorem toNat_addrWord (a : Addr) : (addrWord a).toNat = a.toNat :=
  BitVec.toNat_setWidth_of_le (by decide)

/-- The sum of 12 bits and 8 bits fits the 16 bits of `pc`, so nothing of it is lost (R117). -/
theorem State.toNat_offsetTarget (s : State) (nnn : Addr) :
    (s.offsetTarget nnn).toNat = nnn.toNat + (s.getV 0).toNat := by
  have := nnn.isLt
  have := (s.getV 0).isLt
  simp only [State.offsetTarget, BitVec.toNat_add, BitVec.toNat_setWidth]
  omega

@[simp] theorem State.setPc_self (s : State) : s.setPc s.pc = s := rfl

/-- A jump to itself leaves `pc` where it is, so it changes the result alone (R111). -/
theorem exec_op1nnn_self {nnn : Addr} (h : s.pc = addrWord nnn) :
    exec (.op1nnn nnn) s = .next (s.setResult (some .executed)) := by
  simp only [exec, exec1nnn, State.finishAt_eq, ← h, State.setPc_self]

/-! ### The skips (R96, R113 to R116) -/

/-- A skip whose test decides `p` moves `pc` by 4 where `p` holds and by 2 where it does not, and changes nothing else. -/
theorem State.skipIf_next (s : State) {c : Bool} {p : Prop} [Decidable p] (hc : c = true ↔ p) :
    ∃ t, s.skipIf c = .next t ∧ t.pc = (if p then s.pc + 4 else s.pc + 2) ∧ t.result = some .executed ∧
      s.changesOnly [.pc, .result] t :=
  ⟨_, s.skipIf_eq c, if_congr hc rfl rfl, rfl,
    State.changesOnly_end _ _ (State.changesOnly_refl _ s) (by simp) (by simp)⟩

end ControlRules

/-! ### The statements of 41_control_flow.md -/

/-- Settles O8: each word but the last two is the word of its instruction, so it decodes by the law of decoding an encoded
instruction; the last two are evaluated. -/
theorem sampleWordsDecodeAsTheSpecSays : Obligations.SampleWordsDecodeAsTheSpecSays :=
  ⟨decode_encode (.op6xnn 0xA 0x3C), decode_encode (.op7xnn 0xA 0x01), decode_encode (.op8xy4 0xA 0xB),
    decode_encode (.op8xy5 0xA 0xB), decode_encode (.opDxyn 0x1 0x2 0x5), decode_encode (.opFx0A 0x5),
    decode_encode (.op5xy0 0xA 0xB 0x7), decode_encode (.op9xy0 0xA 0xB 0x1), decode_encode (.op2nnn 0x20A),
    decode_encode .op00EE, by decide, by decide⟩

/-- Settles O23, by the two cases of the stack. -/
theorem returnPopsThePcOrReportsUnderflow : Obligations.ReturnPopsThePcOrReportsUnderflow := by
  refine ⟨decode_encode .op00EE, fun s a rest hst => ?_, fun s empty => ?_⟩
  · have pops := exec_op00EE_of_cons hst
    exact ⟨_, pops, rfl, rfl, rfl, exec_changesOnly pops⟩
  · exact ⟨_, exec_op00EE_of_nil empty, rfl, rfl, State.changesOnly_of_report (State.report_eq s _)⟩

/-- Settles O24: the target is zero-extended, and a jump to where `pc` is already writes the result alone. -/
theorem jumpSetsThePc : Obligations.JumpSetsThePc := by
  intro nnn s
  refine ⟨decode_encode (.op1nnn nnn), _, State.finishAt_eq s _, toNat_addrWord nnn, fun hpc => ⟨rfl, ?_⟩⟩
  have self : addrWord nnn = s.pc := BitVec.eq_of_toNat_eq ((toNat_addrWord nnn).trans hpc.symm)
  rw [self, State.setPc_self]
  exact State.changesOnly_setResult _ (State.changesOnly_refl _ s) (by simp)

/-- Settles O25, by the two cases of the room on the stack. -/
theorem callPushesTheReturnAddressOrReportsOverflow : Obligations.CallPushesTheReturnAddressOrReportsOverflow := by
  intro nnn s
  refine ⟨decode_encode (.op2nnn nnn), fun room => ?_, fun full => ?_⟩
  · have pushes := exec_op2nnn_of_lt nnn room
    exact ⟨_, pushes, rfl, toNat_addrWord nnn, rfl, exec_changesOnly pushes⟩
  · exact ⟨_, exec_op2nnn_of_full nnn full.ge, rfl, rfl, State.changesOnly_of_report (State.report_eq s _)⟩

/-- Settles O26: the return pops what the call pushed, which leaves the stack of before under it. -/
theorem callThenReturnComesBack : Obligations.CallThenReturnComesBack := by
  intro nnn s room
  refine ⟨_, (s.setPc (s.pc + 2)).setResult (some .executed), exec_op2nnn_of_lt nnn room, exec_op00EE_of_cons rfl, rfl, ?_⟩
  exact State.changesOnly_end _ _ (State.changesOnly_refl _ s) (by simp) (by simp)

/-- Settles O27: both are skips, whose tests decide equality with the immediate and its negation. -/
theorem immediateSkipsCompareTheRegister : Obligations.ImmediateSkipsCompareTheRegister :=
  fun x nn s => ⟨decode_encode (.op3xnn x nn), decode_encode (.op4xnn x nn), s.skipIf_next beq_iff_eq,
    s.skipIf_next bne_iff_ne⟩

/-- Settles O28: both are skips, whose tests decide equality of the registers and its negation; with `x = y` they are equal. -/
theorem registerSkipsCompareTwoRegisters : Obligations.RegisterSkipsCompareTwoRegisters := by
  intro x y n s
  refine ⟨decode_encode (.op5xy0 x y n), decode_encode (.op9xy0 x y n), ?_, ?_⟩
  · obtain ⟨t, skips, hpc, hresult, frame⟩ := s.skipIf_next (beq_iff_eq (a := s.getV x) (b := s.getV y))
    exact ⟨t, skips, hpc, fun hxy => hpc.trans (if_pos (hxy ▸ rfl)), hresult, frame⟩
  · obtain ⟨t, skips, hpc, hresult, frame⟩ := s.skipIf_next (bne_iff_ne (a := s.getV x) (b := s.getV y))
    exact ⟨t, skips, hpc, fun hxy => hpc.trans (if_neg fun differ => differ (hxy ▸ rfl)), hresult, frame⟩

/-- Settles O29: the target is the exact sum, and the frame leaves VF with the other registers. -/
theorem offsetJumpAddsV0Exactly : Obligations.OffsetJumpAddsV0Exactly := by
  intro nnn s
  have jumps : exec (.opBnnn nnn) s = s.finishAt (s.offsetTarget nnn) := rfl
  exact ⟨decode_encode (.opBnnn nnn), _, jumps, s.toNat_offsetTarget nnn, rfl, exec_changesOnly jumps⟩

/-- Settles O55: the Cycle runs the jump to itself, and the loop reads neither the random byte nor the result. -/
theorem idleLoopRests : Obligations.IdleLoopRests := by
  rintro s r ⟨hl, he, w, nnn, hf, hd, hpc⟩
  have jumps : exec (.op1nnn nnn) (s.setRand8 r) = .next ((s.setRand8 r).setResult (some .executed)) :=
    exec_op1nnn_self hpc
  refine ⟨_, (cycle_of_instr r hl he hf hd).trans jumps, rfl, ?_, hl, he, w, nnn, hf, hd, hpc⟩
  exact State.changesOnly_setResult _ (State.changesOnly_setRand8 r (State.changesOnly_refl _ s) (by simp)) (by simp)

end Sys2Proof.Machine

/-! SUPPORT. The statements of 42_register_alu.md: the ends of an instruction that writes a register (R130 to R135, R141) and of one
that writes a register and the flag (R136 to R140), the flags as arithmetic, and the random byte, which `Cxnn` alone reads (R141). -/

namespace Sys2Proof.Machine

section AluRules

/-! ### The end of an instruction that writes a register, with and without the flag (R22, R95, R98) -/

/-- A register written at the end of an instruction: no other register changes, and with `pc` and the result that is all. -/
theorem State.setV_finish_next (s : State) (x : Nibble) (v : Byte) :
    ∃ t, (s.setV x v).finish = .next t ∧ t.getV x = v ∧ (∀ r, r ≠ x → t.getV r = s.getV r) ∧ t.pc = s.pc + 2 ∧
      t.result = some .executed ∧ s.changesOnly [.V, .pc, .result] t :=
  ⟨_, State.finish_eq _, s.getV_setV_same x v, fun _ hr => s.getV_setV_ne v hr, rfl, rfl,
    State.changesOnly_of_finishAt [.V] (State.finish_eq _)
      (State.changesOnly_setV x v (State.changesOnly_refl _ s) (by simp))⟩

/-- Without a flag, VF changes only as the destination (R22). -/
theorem State.setV_finish_keeps_VF (s : State) (x : Nibble) (v : Byte) :
    ∃ t, (s.setV x v).finish = .next t ∧ t.getV x = v ∧ (x ≠ regVF → t.getV regVF = s.getV regVF) ∧ t.pc = s.pc + 2 := by
  obtain ⟨t, ht, hx, others, hpc, _⟩ := s.setV_finish_next x v
  exact ⟨t, ht, hx, fun hne => others regVF hne.symm, hpc⟩

/-- A register and the flag written at the end of an instruction: the flag is in VF even where VF is the destination (R95; D8). -/
theorem State.setVFlag_finish_next (s : State) (x : Nibble) (v : Byte) (f : Bool) :
    ∃ t, (s.setVFlag x v f).finish = .next t ∧ t.getV regVF = flagByte f ∧ (x ≠ regVF → t.getV x = v) ∧
      (∀ r, r ≠ x → r ≠ regVF → t.getV r = s.getV r) ∧ t.pc = s.pc + 2 ∧ t.result = some .executed ∧
      s.changesOnly [.V, .pc, .result] t := by
  have registers (r : Nibble) := s.getV_setVFlag x v f r
  refine ⟨_, State.finish_eq _, (registers regVF).trans (if_pos rfl), fun hx => ?_, fun r hr hF => ?_, rfl, rfl, ?_⟩
  · exact (registers x).trans (by rw [if_neg hx, if_pos rfl])
  · exact (registers r).trans (by rw [if_neg hF, if_neg hr])
  · exact State.changesOnly_of_finishAt [.V] (State.finish_eq _)
      (State.changesOnly_setVFlag x v f (State.changesOnly_refl _ s) (by simp))

/-! ### Results and flags as arithmetic (R136 to R140) -/

theorem toNat_sub_byte (a b : Byte) : (a - b).toNat = (a.toNat + 256 - b.toNat) % 256 := by bv_omega

theorem flagByte_decide (p : Prop) [Decidable p] : flagByte (decide p) = if p then 1 else 0 :=
  if_congr decide_eq_true_iff rfl rfl

theorem toNat_flagByte (f : Bool) : (flagByte f).toNat = f.toNat := by cases f <;> rfl

/-- The bit that a right shift drops is the remainder of the division by 2 (R138). -/
theorem toNat_flagByte_shiftedOutRight (a : Byte) : (flagByte (shiftedOutRight a)).toNat = a.toNat % 2 := by
  rw [toNat_flagByte, shiftedOutRight, BitVec.getLsbD, Nat.toNat_testBit, Nat.pow_zero, Nat.div_one]

/-- The bit that a left shift drops is the quotient by 128 (R140). -/
theorem toNat_flagByte_shiftedOutLeft (a : Byte) : (flagByte (shiftedOutLeft a)).toNat = a.toNat / 128 := by
  rw [toNat_flagByte, shiftedOutLeft, BitVec.getLsbD, Nat.toNat_testBit]
  exact Nat.mod_eq_of_lt (by omega)

theorem toNat_shiftRight_one (a : Byte) : (a >>> 1).toNat = a.toNat / 2 := by
  rw [BitVec.toNat_ushiftRight, Nat.shiftRight_one]

theorem toNat_shiftLeft_one (a : Byte) : (a <<< 1).toNat = a.toNat * 2 % 256 := by
  rw [BitVec.toNat_shiftLeft, Nat.shiftLeft_eq, Nat.pow_one]

/-- A difference and its flag written at the end of an instruction, for both orders of the operands (R137, R139). -/
theorem State.difference_finish_next (s : State) (x : Nibble) (a b : Byte) :
    ∃ t, (s.setVFlag x (a - b) (noBorrow a b)).finish = .next t ∧
      t.getV regVF = (if a.toNat ≥ b.toNat then 1 else 0) ∧
      (x ≠ regVF → (t.getV x).toNat = (a.toNat + 256 - b.toNat) % 256) ∧
      (∀ r, r ≠ x → r ≠ regVF → t.getV r = s.getV r) ∧ t.pc = s.pc + 2 ∧ t.result = some .executed ∧
      s.changesOnly [.V, .pc, .result] t := by
  obtain ⟨t, ht, hF, hx, frame⟩ := s.setVFlag_finish_next x (a - b) (noBorrow a b)
  exact ⟨t, ht, hF.trans (flagByte_decide _), fun hne => hx hne ▸ toNat_sub_byte a b, frame⟩

/-! ### What an instruction other than `Cxnn` does with the random byte: it carries it along unread (R141) -/

variable {s t u : State}

theorem State.storeRegs_setRand8 (s : State) (r : Byte) (k : Nat) :
    (s.setRand8 r).storeRegs k = (s.storeRegs k).setRand8 r := by
  induction k with
  | zero => rfl
  | succ k ih => rw [State.storeRegs, ih]; rfl

theorem State.loadRegs_setRand8 (s : State) (r : Byte) (k : Nat) :
    (s.setRand8 r).loadRegs k = (s.loadRegs k).setRand8 r := by
  induction k with
  | zero => rfl
  | succ k ih => rw [State.loadRegs, ih]; rfl

theorem State.drawRows_setRand8 (s : State) (r : Byte) (x0 y0 k : Nat) :
    (s.setRand8 r).drawRows x0 y0 k = s.drawRows x0 y0 k := by
  induction k with
  | zero => rfl
  | succ k ih => rw [State.drawRows, ih]; rfl

theorem exec_opEx9E_of_code {x : Nibble} (code : (s.getV x).toNat ≤ 0x0F) :
    exec (.opEx9E x) s = s.skipIf (s.getKey ((s.getV x).setWidth 4)) :=
  ((exec_opEx9E_cases x s).resolve_right fun ⟨noCode, _⟩ => Nat.not_le_of_lt noCode code).2

theorem exec_opExA1_of_code {x : Nibble} (code : (s.getV x).toNat ≤ 0x0F) :
    exec (.opExA1 x) s = s.skipIf (!s.getKey ((s.getV x).setWidth 4)) :=
  ((exec_opExA1_cases x s).resolve_right fun ⟨noCode, _⟩ => Nat.not_le_of_lt noCode code).2

theorem State.finishAt_setRand8 {a : Word} (r : Byte) (h : u.finishAt a = .next t) :
    (u.setRand8 r).finishAt a = .next (t.setRand8 r) := by
  cases h
  rfl

theorem State.report_setRand8 {c : Condition} (r : Byte) (h : u.report c = .next t) :
    (u.setRand8 r).report c = .next (t.setRand8 r) := by
  cases h
  rfl

/-- An instruction other than `Cxnn` that answers a next state answers the same one whatever the random byte is, with that byte in
it. -/
theorem exec_setRand8_of_next {i : Instr} (r : Byte) (other : ∀ x nn, i ≠ .opCxnn x nn) (h : exec i s = .next t) :
    exec i (s.setRand8 r) = .next (t.setRand8 r) := by
  cases i with
  | opCxnn x nn => exact absurd rfl (other x nn)
  | op00EE =>
    obtain ⟨a, rest, hst, he⟩ | ⟨empty, he⟩ := exec_op00EE_cases s <;> rw [he] at h
    · exact (exec_op00EE_of_cons (s := s.setRand8 r) hst).trans (State.finishAt_setRand8 r h)
    · exact (exec_op00EE_of_nil (s := s.setRand8 r) empty).trans (State.report_setRand8 r h)
  | op2nnn nnn =>
    obtain ⟨room, he⟩ | ⟨full, he⟩ := exec_op2nnn_cases nnn s <;> rw [he] at h
    · exact (exec_op2nnn_of_lt (s := s.setRand8 r) nnn room).trans (State.finishAt_setRand8 r h)
    · exact (exec_op2nnn_of_full (s := s.setRand8 r) nnn full).trans (State.report_setRand8 r h)
  | opEx9E x =>
    obtain ⟨code, he⟩ | ⟨_, he⟩ := exec_opEx9E_cases x s <;> rw [he] at h
    · exact (exec_opEx9E_of_code (s := s.setRand8 r) code).trans (State.finishAt_setRand8 r h)
    · cases h
  | opExA1 x =>
    obtain ⟨code, he⟩ | ⟨_, he⟩ := exec_opExA1_cases x s <;> rw [he] at h
    · exact (exec_opExA1_of_code (s := s.setRand8 r) code).trans (State.finishAt_setRand8 r h)
    · cases h
  | opDxyn x y n =>
    simp only [exec, execDxyn, State.drawRows_setRand8, State.setRand8_getV] at h ⊢
    exact State.finishAt_setRand8 r h
  | opFx55 x =>
    simp only [exec, execFx55, State.storeRegs_setRand8] at h ⊢
    exact State.finishAt_setRand8 r h
  | opFx65 x =>
    simp only [exec, execFx65, State.loadRegs_setRand8] at h ⊢
    exact State.finishAt_setRand8 r h
  | _ => exact State.finishAt_setRand8 r h

end AluRules

/-! ### The statements of 42_register_alu.md -/

/-- Settles O36: the answer carries the random byte along, and the condition of a fault reads registers alone. -/
theorem onlyTheRandomInstructionReadsTheRandomByte : Obligations.OnlyTheRandomInstructionReadsTheRandomByte :=
  fun i s r other => ⟨fun _ h => exec_setRand8_of_next r other h,
    fun f h => (exec_fault_iff i (s.setRand8 r) f).mpr ((exec_fault_iff i s f).mp h)⟩

/-- Settles O30: both write the register `x` alone, the sum mod 256 by the addition of bytes. -/
theorem immediateLoadAndAddWriteTheRegister : Obligations.ImmediateLoadAndAddWriteTheRegister := by
  intro x nn s
  refine ⟨decode_encode (.op6xnn x nn), decode_encode (.op7xnn x nn), ?_, ?_⟩
  · exact s.setV_finish_keeps_VF x nn
  · obtain ⟨t, adds, hx, frame⟩ := s.setV_finish_keeps_VF x (s.getV x + nn)
    exact ⟨t, adds, hx ▸ BitVec.toNat_add _ _, frame⟩

/-- Settles O31: all four write the register `x` alone. -/
theorem copyAndLogicWriteTheRegister : Obligations.CopyAndLogicWriteTheRegister := by
  intro x y s
  have writes := s.setV_finish_keeps_VF x
  refine ⟨decode_encode (.op8xy0 x y), decode_encode (.op8xy1 x y), decode_encode (.op8xy2 x y),
    decode_encode (.op8xy3 x y), ?_⟩
  simp only [List.forall_mem_cons]
  exact ⟨writes _, writes _, writes _, writes _, List.forall_mem_nil _⟩

/-- Settles O32: the sum and its carry, from the operands of before. -/
theorem addSetsTheSumAndTheCarry : Obligations.AddSetsTheSumAndTheCarry := by
  intro x y s
  obtain ⟨t, adds, hF, hx, frame⟩ :=
    s.setVFlag_finish_next x (s.getV x + s.getV y) (carryOut (s.getV x) (s.getV y))
  exact ⟨decode_encode (.op8xy4 x y), t, adds, hF.trans (flagByte_decide _),
    fun hne => hx hne ▸ BitVec.toNat_add _ _, frame⟩

/-- Settles O33: both are the same subtraction, with the operands exchanged. -/
theorem subtractionsSetTheDifferenceAndNoBorrow : Obligations.SubtractionsSetTheDifferenceAndNoBorrow := by
  intro x y s
  have subtracts := s.difference_finish_next x
  refine ⟨decode_encode (.op8xy5 x y), decode_encode (.op8xy7 x y), ?_⟩
  simp only [List.forall_mem_cons]
  exact ⟨subtracts _ _, subtracts _ _, List.forall_mem_nil _⟩

/-- Settles O34: the shifted register and the lost bit are of `x` alone, so the instruction is the same one for every `y`. -/
theorem shiftsWorkInPlaceAndKeepTheLostBit : Obligations.ShiftsWorkInPlaceAndKeepTheLostBit := by
  intro x y s
  refine ⟨decode_encode (.op8xy6 x y), decode_encode (.op8xyE x y), ?_, ?_, fun _ => ⟨rfl, rfl⟩⟩
  · obtain ⟨t, shifts, hF, hx, frame⟩ := s.setVFlag_finish_next x (s.getV x >>> 1) (shiftedOutRight (s.getV x))
    exact ⟨t, shifts, hF ▸ toNat_flagByte_shiftedOutRight _,
      fun hne => hx hne ▸ toNat_shiftRight_one _, frame⟩
  · obtain ⟨t, shifts, hF, hx, frame⟩ := s.setVFlag_finish_next x (s.getV x <<< 1) (shiftedOutLeft (s.getV x))
    exact ⟨t, shifts, hF ▸ toNat_flagByte_shiftedOutLeft _,
      fun hne => hx hne ▸ toNat_shiftLeft_one _, frame⟩

/-- Settles O35: a mask leaves no bit outside it, whatever the byte is. -/
theorem randomByteIsMasked : Obligations.RandomByteIsMasked := by
  intro x nn r s
  obtain ⟨t, draws, hx, frame⟩ := (s.setRand8 r).setV_finish_next x (r &&& nn)
  refine ⟨decode_encode (.opCxnn x nn), t, draws, hx, ?_, fun hnn => ?_, frame⟩
  · rw [hx, BitVec.and_assoc, BitVec.and_not_self]
    exact BitVec.and_zero
  · rw [hx, hnn]
    exact BitVec.and_zero

end Sys2Proof.Machine

/-! SUPPORT. The statements of 43_index_memory.md: the end of an instruction that writes `I` and the values it takes (R150 to R152),
the decimal digits of a byte and where `Fx33` puts them (R153), and the registers that `Fx55` and `Fx65` transfer (R154, R155). -/

namespace Sys2Proof.Machine

section IndexRules

/-! ### The end of an instruction that writes the index register, and the values it takes (R150 to R152) -/

/-- The index register written at the end of an instruction: with `pc` and the result that is all. -/
theorem State.setI_finish_next (s : State) (i : Word) :
    ∃ t, (s.setI i).finish = .next t ∧ t.I = i ∧ t.pc = s.pc + 2 ∧ t.result = some .executed ∧
      s.changesOnly [.I, .pc, .result] t :=
  ⟨_, State.finish_eq _, rfl, rfl, rfl, State.changesOnly_of_finishAt [.I] (State.finish_eq _)
    (State.changesOnly_setI i (State.changesOnly_refl _ s) (by simp))⟩

/-- Writing the index register leaves VF: there is no flag of a wrap (R150, R151). -/
theorem State.setI_finish_keeps_VF (s : State) (i : Word) :
    ∃ t, (s.setI i).finish = .next t ∧ t.I = i ∧ t.getV regVF = s.getV regVF ∧ t.pc = s.pc + 2 := by
  obtain ⟨t, ht, hI, hpc, _, frame⟩ := s.setI_finish_next i
  exact ⟨t, ht, hI, frame .V (by simp) regVF, hpc⟩

theorem State.toNat_indexPlus (s : State) (v : Byte) : (s.indexPlus v).toNat = (s.I.toNat + v.toNat) % 4096 := by
  rw [State.indexPlus, BitVec.toNat_ofNat]
  omega

/-- Five times a byte is inside the space, so the reduction mod 4096 never shows (R152). -/
theorem toNat_glyphAddr (v : Byte) : (glyphAddr v).toNat = v.toNat * 5 := by
  have fits : v.toNat * 5 < 4096 := by omega
  rw [glyphAddr, Nat.mod_eq_of_lt fits, BitVec.toNat_ofNat]
  omega

/-! ### The decimal digits of a byte and where they are stored (R153) -/

@[simp] theorem toNat_bcdHundreds (v : Byte) : (bcdHundreds v).toNat = v.toNat / 100 := by
  rw [bcdHundreds, BitVec.toNat_ofNat]
  omega

@[simp] theorem toNat_bcdTens (v : Byte) : (bcdTens v).toNat = v.toNat / 10 % 10 := by
  rw [bcdTens, BitVec.toNat_ofNat]
  omega

@[simp] theorem toNat_bcdOnes (v : Byte) : (bcdOnes v).toNat = v.toNat % 10 := by
  rw [bcdOnes, BitVec.toNat_ofNat]
  omega

/-- `Fx33` ends with the three digits stored. -/
theorem exec_opFx33 (x : Nibble) (s : State) :
    exec (.opFx33 x) s = (((s.store (s.dataAddr 0) (bcdHundreds (s.getV x))).store (s.dataAddr 1)
      (bcdTens (s.getV x))).store (s.dataAddr 2) (bcdOnes (s.getV x))).finish := rfl

/-- The digits are all there: the three addresses differ, also where they wrap (R53). -/
theorem read_of_exec_opFx33 {x : Nibble} {s t : State} (h : exec (.opFx33 x) s = .next t) :
    t.read (s.dataAddr 0) = bcdHundreds (s.getV x) ∧ t.read (s.dataAddr 1) = bcdTens (s.getV x) ∧
      t.read (s.dataAddr 2) = bcdOnes (s.getV x) := by
  have apart {j k : Nat} (hj : j < 3) (hk : k < 3) : s.dataAddr j = s.dataAddr k ↔ j = k :=
    s.dataAddr_inj (by omega) (by omega)
  cases h
  simp [State.read_store, apart]

/-! ### The registers that `Fx55` stores and `Fx65` loads (R154, R155) -/

/-- A register among the first `k` is stored at the offset of its number. -/
theorem State.read_storeRegs_getV (s : State) {k : Nat} (hk : k ≤ 16) {r : Nibble} (hr : r.toNat < k) :
    (s.storeRegs k).read (s.dataAddr r.toNat) = s.getV r := by
  rw [s.read_storeRegs_dataAddr hk hr, BitVec.ofNat_toNat, BitVec.setWidth_eq]

/-- An address that is no register's is none of those that `Fx55` stores to. -/
theorem not_mem_storesTo_opFx55 {x : Nibble} {s : State} {a : Addr}
    (other : ∀ r : Nibble, r.toNat ≤ x.toNat → a ≠ s.dataAddr r.toNat) : a ∉ (Instr.opFx55 x).storesTo s := by
  intro stored
  obtain ⟨j, hj, rfl⟩ := List.mem_map.mp stored
  have hjx : j < x.toNat + 1 := List.mem_range.mp hj
  have number : (BitVec.ofNat 4 j).toNat = j := by
    rw [BitVec.toNat_ofNat, Nat.mod_eq_of_lt (by omega)]
  exact other (BitVec.ofNat 4 j) (number.le.trans (Nat.le_of_lt_succ hjx)) (by rw [number])

@[simp] theorem State.loadRegs_pc (s : State) (k : Nat) : (s.loadRegs k).pc = s.pc := by
  obtain ⟨v, hv⟩ := s.loadRegs_eq_setRegs k
  rw [hv, State.setRegs_pc]

/-- `Fx65` loads its registers and goes on at the next instruction (R155). -/
theorem exec_opFx65 (x : Nibble) (s : State) :
    exec (.opFx65 x) s = .next (((s.loadRegs (x.toNat + 1)).setPc (s.pc + 2)).setResult (some .executed)) := by
  simp only [exec, execFx65, State.finish_eq, State.loadRegs_pc]

end IndexRules

/-! ### The statements of 43_index_memory.md -/

/-- Settles O40: the three addresses differ, and the other bytes are in the frame of the instruction. -/
theorem bcdStoresThreeDigits : Obligations.BcdStoresThreeDigits := by
  intro x s
  have stores := (exec_opFx33 x s).trans (State.finish_eq _)
  obtain ⟨hundreds, tens, ones⟩ := read_of_exec_opFx33 stores
  refine ⟨decode_encode (.opFx33 x), _, stores, ?_, ?_, ?_, fun a h0 h1 h2 => ?_, s.toNat_dataAddr, rfl, rfl,
    exec_changesOnly stores⟩
  · rw [hundreds, toNat_bcdHundreds]
  · rw [tens, toNat_bcdTens]
  · rw [ones, toNat_bcdOnes]
  · exact read_of_exec stores (by simp [Instr.storesTo, h0, h1, h2])

/-- Settles O41: what is not stored is in the frames of the instruction. -/
theorem storeRegistersCopiesV0ToVx : Obligations.StoreRegistersCopiesV0ToVx := by
  intro x s
  have stores := exec_opFx55 x s
  have frame := exec_changesOnly stores
  refine ⟨decode_encode (.opFx55 x), _, stores, fun r hr => ?_, fun a other => ?_, s.toNat_dataAddr,
    frame .I (by simp [Instr.writes]), frame .V (by simp [Instr.writes]), rfl⟩
  · exact s.read_storeRegs_getV x.isLt (Nat.lt_succ_of_le hr)
  · exact read_of_exec stores (not_mem_storesTo_opFx55 other)

/-- Settles O42: the loop loads the registers up to `x`, and the rest is in the frames of the instruction. -/
theorem loadRegistersCopiesV0ToVx : Obligations.LoadRegistersCopiesV0ToVx := by
  intro x s
  have loads := exec_opFx65 x s
  have frame := exec_changesOnly loads
  refine ⟨decode_encode (.opFx65 x), _, loads, fun r hr => ?_, fun r hr => ?_, s.toNat_dataAddr,
    frame .I (by simp [Instr.writes]), frame .mem (by simp [Instr.writes]), rfl⟩
  · exact (s.getV_loadRegs _ x.isLt r).trans (if_pos (Nat.lt_succ_of_le hr))
  · exact getV_of_exec loads (by simpa [Instr.writesReg] using hr)

/-- Settles O38: both write the index register alone. -/
theorem indexLoadAndAddWriteTheIndex : Obligations.IndexLoadAndAddWriteTheIndex := by
  refine ⟨fun nnn s => ⟨decode_encode (.opAnnn nnn), ?_⟩, fun x s => ⟨decode_encode (.opFx1E x), ?_⟩⟩
  · obtain ⟨t, loads, hI, rest⟩ := s.setI_finish_keeps_VF (addrWord nnn)
    exact ⟨t, loads, hI ▸ toNat_addrWord nnn, rest⟩
  · obtain ⟨t, adds, hI, rest⟩ := s.setI_finish_keeps_VF (s.indexPlus (s.getV x))
    exact ⟨t, adds, hI ▸ s.toNat_indexPlus (s.getV x), rest⟩

/-- Settles O39: the product fits the space, so it is exact for the whole byte. -/
theorem glyphAddressIsFiveTimesTheByte : Obligations.GlyphAddressIsFiveTimesTheByte := by
  intro x s
  obtain ⟨t, points, hI, rest⟩ := s.setI_finish_next (glyphAddr (s.getV x))
  exact ⟨decode_encode (.opFx29 x), t, points, hI ▸ toNat_glyphAddr (s.getV x), rest⟩

end Sys2Proof.Machine

/-! SUPPORT. The statements of 44_display.md: the cells after a draw and its collision, in terms of the cells that the sprite
lights (R171), and the two display instructions as updates of the state (R170, R171). -/

namespace Sys2Proof.Machine

section DisplayRules

variable {s u : State}

/-! ### The sprite in terms of the cells it lights (R28, R171) -/

/-- A cell that the sprite lights is inverted by the draw, since no two of its bits address one cell. -/
theorem State.cell_drawRows_of_lights {x0 y0 : Byte} {n : Nibble} {i : Nat} (hi : i < 2048)
    (lights : s.spriteLights x0 y0 n i) :
    Pixels.cell (s.drawRows x0.toNat y0.toNat n.toNat).1 i = !s.cell i :=
  have ⟨cells, _⟩ := s.drawRows_spec x0.toNat y0.toNat n.toNat n.isLt.le
  (cells i hi).1 lights

theorem State.cell_drawRows_of_not_lights {x0 y0 : Byte} {n : Nibble} {i : Nat} (hi : i < 2048)
    (dark : ¬s.spriteLights x0 y0 n i) :
    Pixels.cell (s.drawRows x0.toNat y0.toNat n.toNat).1 i = s.cell i :=
  have ⟨cells, _⟩ := s.drawRows_spec x0.toNat y0.toNat n.toNat n.isLt.le
  (cells i hi).2 dark

/-- The collision of the whole sprite is a cell that it lights and that was on (R171). -/
theorem State.drawRows_collides_iff (s : State) (x0 y0 : Byte) (n : Nibble) :
    (s.drawRows x0.toNat y0.toNat n.toNat).2 = true ↔
      ∃ i < 2048, s.spriteLights x0 y0 n i ∧ s.cell i = true := by
  rw [(s.drawRows_spec x0.toNat y0.toNat n.toNat n.isLt.le).2]
  constructor
  · rintro ⟨row, hrow, col, hcol, bit, on⟩
    exact ⟨_, cellIndex_lt _ _, ⟨row, hrow, col, hcol, bit, rfl⟩, on⟩
  · rintro ⟨_, _, ⟨row, hrow, col, hcol, bit, rfl⟩, on⟩
    exact ⟨row, hrow, col, hcol, bit, on⟩

/-- The cells that a sprite lights depend on memory and `I` alone. -/
theorem State.spriteLights_congr (hread : ∀ a : Addr, u.read a = s.read a) (hI : u.I = s.I) :
    u.spriteLights = s.spriteLights := by
  funext x0 y0 n i
  simp only [State.spriteLights, State.dataAddr, hread, hI]

/-! ### The display instructions (R170, R171) -/

theorem exec_op00E0 (s : State) :
    exec .op00E0 s = .next (((s.setFb Pixels.allOff).setPc (s.pc + 2)).setResult (some .executed)) := rfl

theorem exec_opDxyn (x y n : Nibble) (s : State) :
    exec (.opDxyn x y n) s =
      ((s.setFb (s.drawRows (s.getV x).toNat (s.getV y).toNat n.toNat).1).setFlag
        (s.drawRows (s.getV x).toNat (s.getV y).toNat n.toNat).2).finish := rfl

end DisplayRules

/-! ### The statements of 44_display.md -/

/-- Settles O21: the draw inverts the cells that the sprite lights, and VF, written last, is its collision even where VF is one of
the registers of the origin. -/
theorem drawTogglesTheSpriteAndReportsCollision : Obligations.DrawTogglesTheSpriteAndReportsCollision := by
  intro x y n s
  have draws := (exec_opDxyn x y n s).trans (State.finish_eq _)
  have collides := s.drawRows_collides_iff (s.getV x) (s.getV y) n
  refine ⟨_, draws, fun i hi => ⟨State.cell_drawRows_of_lights hi, State.cell_drawRows_of_not_lights hi⟩,
    fun hit => ?_, fun miss => ?_, fun r hr => ?_, rfl, rfl, exec_changesOnly draws⟩
  · exact (State.getV_setV_same _ regVF _).trans (congrArg flagByte (collides.mpr hit))
  · have clear : ¬∃ i < 2048, s.spriteLights (s.getV x) (s.getV y) n i ∧ s.cell i = true := by
      rintro ⟨i, hi, lights, on⟩
      exact absurd on (by simp [miss i hi lights])
    exact (State.getV_setV_same _ regVF _).trans
      (congrArg flagByte (Bool.eq_false_iff.mpr (mt collides.mp clear)))
  · exact getV_of_exec draws (by simpa [Instr.writesReg] using hr)

/-- Settles O22, from two uses of O21: both draws light the same cells, so the second inverts what the first inverted, and it meets
a cell that is on where the first met one that was off. -/
theorem drawingTwiceRestoresTheDisplay : Obligations.DrawingTwiceRestoresTheDisplay := by
  intro x y n s t u first hcell hread hI hx hy
  obtain ⟨t', first', toggled, _⟩ := drawTogglesTheSpriteAndReportsCollision x y n s
  cases first.symm.trans first'
  obtain ⟨v, second, toggledAgain, hit, miss, _⟩ := drawTogglesTheSpriteAndReportsCollision x y n u
  rw [hx, hy, State.spriteLights_congr hread hI] at toggledAgain hit miss
  have inverted {i : Nat} (hi : i < 2048) (lights : s.spriteLights (s.getV x) (s.getV y) n i) :
      u.cell i = !s.cell i := (hcell i hi).trans ((toggled i hi).1 lights)
  refine ⟨v, second, fun i hi => ?_, ?_, fun allOn => miss fun i hi lights => ?_⟩
  · by_cases lights : s.spriteLights (s.getV x) (s.getV y) n i
    · rw [(toggledAgain i hi).1 lights, inverted hi lights, Bool.not_not]
    · rw [(toggledAgain i hi).2 lights, hcell i hi, (toggled i hi).2 lights]
  · rintro ⟨i, hi, lights, off⟩
    exact hit ⟨i, hi, lights, by rw [inverted hi lights, off, Bool.not_false]⟩
  · rw [inverted hi lights, allOn i hi lights, Bool.not_true]

/-- Settles O20: every cell of the cleared display is off, and the frame is that of the instruction. -/
theorem clearTurnsEveryCellOff : Obligations.ClearTurnsEveryCellOff := by
  refine ⟨decode_encode .op00E0, fun s => ?_⟩
  have clears := exec_op00E0 s
  exact ⟨_, clears, fun i _ => Pixels.cell_allOff i, rfl, rfl, exec_changesOnly clears⟩

end Sys2Proof.Machine

/-! SUPPORT. The statements of 45_input.md: a key code as the value of a register and the key skips on it (R181, R182), the Key
event (R180, R184), the three phases of `Fx0A` (R183, R184, R92), and the transition table of the execution state (R185). -/

namespace Sys2Proof.Machine

section InputRules

variable {s t : State}

/-! ### A key code as the value of a register, and the key skips on it (R180 to R182) -/

theorem toNat_setWidth_keyCode_le (k : Nibble) : (k.setWidth 8).toNat ≤ 0x0F := by
  rw [BitVec.toNat_setWidth_of_le (by decide)]
  exact Nat.le_of_lt_succ k.isLt

/-- The low nibble of a key code's byte is the key code, so the key skips test the key they are given. -/
theorem setWidth_keyCode_setWidth (k : Nibble) : (k.setWidth 8).setWidth 4 = k := by
  rw [BitVec.setWidth_setWidth_of_le k (by decide), BitVec.setWidth_eq]

theorem exec_opEx9E_of_key {x k : Nibble} (hx : s.getV x = k.setWidth 8) :
    exec (.opEx9E x) s = s.skipIf (s.getKey k) := by
  rw [exec_opEx9E_of_code (hx ▸ toNat_setWidth_keyCode_le k), hx, setWidth_keyCode_setWidth]

theorem exec_opExA1_of_key {x k : Nibble} (hx : s.getV x = k.setWidth 8) :
    exec (.opExA1 x) s = s.skipIf (!s.getKey k) := by
  rw [exec_opExA1_of_code (hx ▸ toNat_setWidth_keyCode_le k), hx, setWidth_keyCode_setWidth]

/-! ### A frame without a piece that comes back to its value -/

theorem State.changesOnly_of_cons {p : Part} {ps : List Part} (h : s.changesOnly (p :: ps) t) (hp : State.agree p s t) :
    s.changesOnly ps t := by
  intro q hq
  by_cases hqp : q = p
  · exact hqp ▸ hp
  · exact h q (by simp [hqp, hq])

/-! ### The execution state after a Cycle of a running machine (R183, R185) -/

/-- `Fx0A` is the only instruction whose row of the access matrix names the execution state (R37). -/
theorem execState_of_exec {i : Instr} (h : exec i s = .next t) (other : ∀ x, i ≠ .opFx0A x) : t.exec = s.exec := by
  have unnamed : .exec ∉ i.writes := by
    cases i with
    | opFx0A x => exact absurd rfl (other x)
    | _ => simp [Instr.writes]
  exact exec_changesOnly h .exec unnamed

theorem cycle_enters_wait {r : Byte} {w : Word} {x : Nibble} (h : cycle r s = .next t) (hl : s.loaded = true)
    (he : s.exec = .running) (hf : s.fetch = .ok w) (hd : decode w = .ok (.opFx0A x)) : t.exec = .awaitingKey x := by
  rw [cycle_of_instr r hl he hf hd, exec_opFx0A] at h
  cases h
  rfl

/-- A running machine whose word is no `Fx0A` runs on: an unknown word leaves the execution state too (R97). -/
theorem cycle_stays_running {r : Byte} (h : cycle r s = .next t) (he : s.exec = .running)
    (other : ∀ w x, s.fetch = .ok w → decode w ≠ .ok (.opFx0A x)) : t.exec = .running := by
  obtain ⟨_, ⟨x, hx, _⟩ | ⟨hx, _⟩ | ⟨_, w, hf, ⟨_, rfl⟩ | ⟨i, hd, hi⟩⟩⟩ := cycle_next_cases h
  · cases he.symm.trans hx
  · cases he.symm.trans hx
  · exact he
  · exact (execState_of_exec hi fun x hx => other w x hf (hx ▸ hd)).trans he

/-! ### The execution state after a Key (R184, R185) -/

theorem key_keeps_execState {code : Nibble} {pressed : Bool} (h : key code pressed s = .next t) (hl : s.loaded = true)
    (noPress : pressed = false ∨ s.getKey code = true ∨ ∀ x, s.exec ≠ .awaitingKey x) : t.exec = s.exec := by
  obtain ⟨x, he, rfl, released, _⟩ | ⟨_, sets⟩ := key_of_loaded code pressed hl
  · simp [he, released] at noPress
  · cases sets.symm.trans h
    rfl

theorem key_ends_wait {code x : Nibble} (h : key code true s = .next t) (hl : s.loaded = true)
    (he : s.exec = .awaitingKey x) (released : s.getKey code = false) : t.exec = .resuming := by
  obtain ⟨_, _, _, _, latches⟩ | ⟨noPress, _⟩ := key_of_loaded code true hl
  · cases latches.symm.trans h
    rfl
  · simp [he, released] at noPress

end InputRules

/-! ### The statements of 45_input.md -/

/-- Settles O45: the instruction reads no key, so a held one makes no difference. -/
theorem waitForKeyOnlyEntersTheWait : Obligations.WaitForKeyOnlyEntersTheWait := by
  intro x s
  have waits := exec_opFx0A x s
  exact ⟨decode_encode (.opFx0A x), _, waits, rfl, rfl, rfl, exec_changesOnly waits⟩

/-- Settles O44: a key code is one of the 16 values that the skips accept, and every other value is a fault. -/
theorem keySkipsTestTheKeyInTheRegister : Obligations.KeySkipsTestTheKeyInTheRegister := by
  intro x s
  refine ⟨decode_encode (.opEx9E x), decode_encode (.opExA1 x), fun k hx => ⟨?_, ?_⟩, fun above => ⟨?_, ?_⟩⟩
  · rw [exec_opEx9E_of_key hx]
    exact s.skipIf_next Iff.rfl
  · rw [exec_opExA1_of_key hx]
    obtain ⟨t, skips, hpc, frame⟩ := s.skipIf_next (c := !s.getKey k) (p := ¬s.getKey k = true) (by simp)
    exact ⟨t, skips, hpc.trans (ite_not _ _ _), frame⟩
  · exact (exec_fault_iff _ s _).mpr ⟨x, .inl rfl, above, rfl⟩
  · exact (exec_fault_iff _ s _).mpr ⟨x, .inr rfl, above, rfl⟩

/-- Settles O19, by the two cases of a Key event: the premises of each clause rule out the other case. -/
theorem keyEventUpdatesItsSlotAndMayEndTheWait : Obligations.KeyEventUpdatesItsSlotAndMayEndTheWait := by
  intro s code pressed hl
  have others {k : Nibble} (hk : k ≠ code) : (s.setKey code pressed).getKey k = s.getKey k :=
    (s.getKey_setKey code k pressed).trans (if_neg hk)
  have slot {ps : List Part} (hk : .keys ∈ ps) (hr : .result ∈ ps) :
      s.changesOnly ps ((s.setKey code pressed).setResult none) :=
    State.changesOnly_setResult _ (State.changesOnly_setKey _ _ (State.changesOnly_refl _ s) hk) hr
  obtain ⟨x, he, rfl, released, latches⟩ | ⟨noPress, sets⟩ := key_of_loaded code pressed hl
  · refine ⟨_, latches, s.getKey_setKey_same code true, fun _ => others, rfl, fun y hy _ _ => ?_, fun noPress => ?_⟩
    · cases he.symm.trans hy
      exact ⟨State.getV_setV_same _ x _, rfl, fun r hr => State.getV_setV_ne _ _ hr,
        State.changesOnly_setExec _ (State.changesOnly_setV _ _ (slot (by simp) (by simp)) (by simp)) (by simp)⟩
    · simp [he, released] at noPress
  · refine ⟨_, sets, s.getKey_setKey_same code pressed, fun _ => others, rfl, fun x he press released => ?_,
      fun _ => slot (by simp) (by simp)⟩
    simp [he, press, released] at noPress

/-- Settles O15: the three phases are those of O45, O19 and O14, each with its frame; only the execution state comes back to the
value it had. -/
theorem keyWaitLatchesTheKeyAndResumes : Obligations.KeyWaitLatchesTheKeyAndResumes := by
  intro s r1 r2 w x code hl he hf hd released
  obtain ⟨_, t1, waits, he1, hpc1, _, frame1⟩ := waitForKeyOnlyEntersTheWait x (s.setRand8 r1)
  have hl1 : t1.loaded = true := (frame1 .loaded (by simp)).trans hl
  have released1 : t1.getKey code = false := (frame1 .keys (by simp) code).trans released
  obtain ⟨t2, press, _, _, _, latch, _⟩ := keyEventUpdatesItsSlotAndMayEndTheWait t1 code true hl1
  obtain ⟨hx2, he2, others2, frame2⟩ := latch x he1 rfl released1
  have hpc2 : t2.pc = s.pc := (frame2 .pc (by simp)).trans hpc1
  obtain ⟨t3, retires, hpc3, he3, _, frame3⟩ :=
    retiringCycleOnlyAddsTwo t2 r2 ((frame2 .loaded (by simp)).trans hl1) he2
  have regs1 (y : Nibble) : t1.getV y = s.getV y := frame1 .V (by simp) y
  have regs3 (y : Nibble) : t3.getV y = t2.getV y := frame3 .V (by simp) y
  refine ⟨t1, t2, t3, (cycle_of_instr r1 hl he hf hd).trans waits, he1, hpc1, press, he2, hpc2, retires, he3,
    hpc3.trans (congrArg (· + 2) hpc2), (regs3 x).trans hx2,
    fun y hy => (regs3 y).trans ((others2 y hy).trans (regs1 y)), ?_⟩
  have frame0 : s.changesOnly [.rand8] (s.setRand8 r1) :=
    State.changesOnly_setRand8 r1 (State.changesOnly_refl _ s) (by simp)
  have all : s.changesOnly [.exec, .V, .pc, .keys, .rand8, .result] t3 :=
    State.changesOnly_trans (State.changesOnly_mono frame0 (by simp)) <|
    State.changesOnly_trans (State.changesOnly_mono frame1 (by simp)) <|
    State.changesOnly_trans (State.changesOnly_mono frame2 (by simp)) (State.changesOnly_mono frame3 (by simp))
  exact State.changesOnly_of_cons all (he3.trans he.symm)

/-- Settles O16, row by row: the Cycle by the phase it starts in, the Tick by its frame, the Key and the Load each by its
two cases. -/
theorem executionStateFollowsItsTable : Obligations.ExecutionStateFollowsItsTable := by
  intro s t e hl h
  refine ⟨?_, ?_, ?_, ?_, ?_, ?_, ?_, ?_, ?_⟩
  · rintro r rfl he
    exact ⟨fun w x hf hd => cycle_enters_wait h hl he hf hd, cycle_stays_running h he⟩
  · rintro r x rfl he
    cases (cycle_of_awaiting r hl he).symm.trans h
    exact he
  · rintro r rfl he
    cases (cycle_of_resuming r hl he).symm.trans h
    rfl
  · rintro rfl
    exact tick_changesOnly h .exec (by simp)
  · rintro code rfl
    exact key_keeps_execState h hl (.inl rfl)
  · rintro code rfl noPress
    exact key_keeps_execState h hl (.inr noPress)
  · rintro code x rfl released he
    exact key_ends_wait h hl he released
  · rintro bytes rfl fits
    obtain ⟨long, _⟩ | ⟨_, loads⟩ := load_cases (s := s) bytes
    · exact absurd fits (Nat.not_le_of_lt long)
    · cases loads.symm.trans h
      rfl
  · rintro bytes rfl long
    obtain ⟨_, refuses⟩ | ⟨fits, _⟩ := load_cases (s := s) bytes
    · cases refuses.symm.trans h
      rfl
    · exact absurd fits (Nat.not_le_of_lt long)

end Sys2Proof.Machine

/-! SUPPORT. The statements of 46_timers.md: Ticks one after another (R200), the two instructions that set a timer (R202, R203), and
the tone (R204). -/

namespace Sys2Proof.Machine

section TimerRules

/-! ### The first of several events -/

theorem State.deliverAll_cons_of_next {s t : State} {e : Event} (h : event e s = .next t) (es : List Event) :
    s.deliverAll (e :: es) = t.deliverAll es := by
  rw [State.deliverAll, List.foldl_cons, deliver_of_next h, State.deliverAll]

/-! ### The instructions that set a timer, and the tone (R202 to R204) -/

theorem exec_opFx15 (x : Nibble) (s : State) :
    exec (.opFx15 x) s =
      .next (((s.setDT (s.getV x)).setPc (s.pc + 2)).setResult (some .executed)) := rfl

theorem exec_opFx18 (x : Nibble) (s : State) :
    exec (.opFx18 x) s =
      .next (((s.setST (s.getV x)).setPc (s.pc + 2)).setResult (some .executed)) := rfl

theorem State.tone_iff (s : State) : s.tone = true ↔ s.ST ≠ 0 := by
  rw [State.tone, decide_eq_true_iff]
  bv_omega

end TimerRules

/-! ### The statements of 46_timers.md -/

/-- Settles O17: the Tick asks for a loaded machine alone, and each timer steps by its own law. -/
theorem tickStepsBothTimers : Obligations.TickStepsBothTimers := by
  intro s hl
  have ticks := tick_of_loaded hl
  exact ⟨_, ticks, toNat_tickTimer s.DT, toNat_tickTimer s.ST, rfl, tick_changesOnly ticks⟩

/-- Settles O18, by induction on the number of Ticks: the first is O17, which leaves the machine loaded for the others. -/
theorem timersCountDownOnePerTick : Obligations.TimersCountDownOnePerTick := by
  intro n
  induction n with
  | zero => exact fun s _ => ⟨rfl, rfl, State.changesOnly_refl _ s⟩
  | succ n ih =>
    intro s hl
    obtain ⟨t, ticks, hDT, hST, _, first⟩ := tickStepsBothTimers s hl
    have still_loaded : t.loaded = true := (first .loaded (by simp)).trans hl
    obtain ⟨restDT, restST, others⟩ := ih t still_loaded
    rw [List.replicate_succ, State.deliverAll_cons_of_next ticks]
    exact ⟨by omega, by omega, State.changesOnly_trans first others⟩

/-- Settles O46: `Fx07` is a write of one register, `Fx15` and `Fx18` are updates of one timer with the frame of the access
matrix. -/
theorem timerInstructionsReadAndSetTheTimers : Obligations.TimerInstructionsReadAndSetTheTimers := by
  intro x s
  have setsDT := exec_opFx15 x s
  have setsST := exec_opFx18 x s
  exact ⟨decode_encode (.opFx07 x), decode_encode (.opFx15 x), decode_encode (.opFx18 x), s.setV_finish_next x s.DT,
    ⟨_, setsDT, rfl, rfl, rfl, exec_changesOnly setsDT⟩,
    ⟨_, setsST, rfl, State.tone_iff _, rfl, rfl, exec_changesOnly setsST⟩⟩

end Sys2Proof.Machine

/-! SUPPORT. The statements of 60_exceptions.md and 70_reset_and_hazards.md: where an event and a step abort (R210, R215, R216, R220),
and the Load that is refused whole (R214, R241). -/

namespace Sys2Proof.Machine

section FaultRules

variable {s : State}

/-! ### The faults of an event -/

/-- Which fault a Cycle ends in is `cycle_fault_iff`; that it ends in one is the resting state (c), for every random byte. -/
theorem exists_cycle_fault_iff (r : Byte) (s : State) : (∃ f, cycle r s = .fault f) ↔ s.faulted := by
  simp only [cycle_fault_iff]
  constructor
  · rintro ⟨f, loaded, running, ⟨beyond, _⟩ | ⟨w, x, fetched, skip, noKey, _⟩⟩
    · exact ⟨loaded, running, .inl beyond⟩
    · exact ⟨loaded, running, .inr ⟨w, x, fetched, skip, noKey⟩⟩
  · rintro ⟨loaded, running, beyond | ⟨w, x, fetched, skip, noKey⟩⟩
    · exact ⟨_, loaded, running, .inl ⟨beyond, rfl⟩⟩
    · exact ⟨_, loaded, running, .inr ⟨w, x, fetched, skip, noKey, rfl⟩⟩

/-- A Tick answers a next state or is refused (R200). -/
theorem tick_ne_fault (f : Fault) (s : State) : tick s ≠ .fault f := by
  intro h
  cases hl : s.loaded with
  | true => cases (tick_of_loaded hl).symm.trans h
  | false => cases (tick_of_not_loaded hl).symm.trans h

/-- A Key answers a next state or is refused (R180). -/
theorem key_ne_fault (code : Nibble) (pressed : Bool) (f : Fault) (s : State) : key code pressed s ≠ .fault f := by
  intro h
  cases hl : s.loaded with
  | true =>
    obtain ⟨_, _, _, _, hk⟩ | ⟨_, hk⟩ := key_of_loaded code pressed hl
    · cases hk.symm.trans h
    · cases hk.symm.trans h
  | false => cases (key_of_not_loaded code pressed hl).symm.trans h

/-- A Load always answers a next state, the refused one too (R240, R241). -/
theorem load_ne_fault (bytes : List Byte) (f : Fault) (s : State) : load bytes s ≠ .fault f := by
  intro h
  obtain ⟨_, hL⟩ | ⟨_, hL⟩ := load_cases (s := s) bytes
  · cases hL.symm.trans h
  · cases hL.symm.trans h

/-- Only a Cycle aborts (R210, R220). -/
theorem exists_event_fault_iff (e : Event) (s : State) :
    (∃ f, event e s = .fault f) ↔ (∃ r, e = .cycle r) ∧ s.faulted := by
  constructor
  · rintro ⟨f, h⟩
    cases e with
    | cycle r => exact ⟨⟨r, rfl⟩, (exists_cycle_fault_iff r s).mp ⟨f, h⟩⟩
    | tick => exact absurd h (tick_ne_fault f s)
    | key code pressed => exact absurd h (key_ne_fault code pressed f s)
    | load bytes => exact absurd h (load_ne_fault bytes f s)
  · rintro ⟨⟨r, rfl⟩, faulted⟩
    exact (exists_cycle_fault_iff r s).mpr faulted

/-! ### The schedule, and what the resting state (c) does not read of it -/

theorem State.cycleNext_of_nil (h : s.inbox = []) : s.cycleNext := .inl h

theorem State.cycleNext_of_cons {e : Event} {rest : List Event} (h : s.inbox = e :: rest) :
    s.cycleNext ↔ ∃ r, e = .cycle r := by
  simp [State.cycleNext, h]

@[simp] theorem State.faulted_setDraws (s : State) (n : Nat) : (s.setDraws n).faulted ↔ s.faulted := Iff.rfl

@[simp] theorem State.faulted_setInbox (s : State) (l : List Event) : (s.setInbox l).faulted ↔ s.faulted := Iff.rfl

end FaultRules

/-! ### The statements of 60_exceptions.md and 70_reset_and_hazards.md -/

/-- Settles O51, for both sources of the event: of the events only a Cycle faults, and it faults in the resting state (c),
which reads neither the inbox nor the count of draws. -/
theorem stepFaultsExactlyOnTheTwoAbortingConditions : Obligations.StepFaultsExactlyOnTheTwoAbortingConditions := by
  intro s
  obtain ⟨noEvent, hs⟩ | ⟨e, rest, head, hs⟩ := step_cases s
  · rw [hs, exists_cycle_fault_iff, State.faulted_setDraws]
    exact (and_iff_right (State.cycleNext_of_nil noEvent)).symm
  · rw [hs, exists_event_fault_iff, State.faulted_setInbox, State.cycleNext_of_cons head]

/-- Settles O3: of the two cases of a Load the length leaves the refusal, which writes the result alone. -/
theorem loadTooLongIsRefusedWhole : Obligations.LoadTooLongIsRefusedWhole := by
  intro bytes s long
  obtain ⟨_, refuses⟩ | ⟨fits, _⟩ := load_cases (s := s) bytes
  · exact ⟨_, refuses, rfl, State.changesOnly_setResult _ (State.changesOnly_refl _ s) (by simp)⟩
  · exact absurd fits (Nat.not_le_of_lt long)

end Sys2Proof.Machine
